-- ==== Sys2Proof/Word.lean ====
section
/-! DEFINITION. The word types of the two units (00_scope R11, 10_state R32): every one is an unsigned bit vector, and
no value is ever sign-extended (R14). -/

namespace Sys2Proof

/-- A host register or a command word: `REG_BITS` = 32 (R11, R120). -/
abbrev Word := BitVec 32

/-- A byte of a stream, and an 8-bit field (R14, R100). -/
abbrev Byte := BitVec 8

/-- "one of the 256 possible byte values" (R20). -/
abbrev Symbol := BitVec 8

/-- A node index 0..510; the selector value 511 names no node (R53, R60). -/
abbrev NodeIdx := BitVec 9

/-- A node weight: `WEIGHT_BITS` = 40 (R11, R200). -/
abbrev Weight := BitVec 40

/-- A 64-bit counter (R11, R44, R45, R46, R49). -/
abbrev Counter := BitVec 64

/-- A code pattern: 255 bits, right-aligned (R61). -/
abbrev Pattern := BitVec 255

end Sys2Proof
end

