-- ==== Sys2Proof/Syntax.lean ====
section
/-! DEFINITION. The command set HUFCMD version 1: one constructor per row of spec/opcode_table.json (30_encoding R124,
R125), the two units (10_state R30) and the two formats (R121). -/

namespace Sys2Proof

/-- The two units (R21, R30). -/
inductive UnitId where
  | enc
  | dec
deriving DecidableEq, Repr

/-- The two command formats (R121). -/
inductive Format where
  | f0
  | f1
deriving DecidableEq, Repr

/-- A command, one constructor per row of the opcode table; `sym` is the symbol operand of format F1 (R122). -/
inductive Instr where
  | eNop
  | eClear
  | eAccum (sym : Symbol)
  | eAccumStream
  | eBuildTree
  | eGenCodes
  | eEmitHeader
  | ePack (sym : Symbol)
  | ePackStream
  | eFinish
  | ePrepare
  | eDrain
  | dNop
  | dClear
  | dLoadHeader
  | dBuildTree
  | dGenCodes
  | dCheckTbc
  | dWalk
  | dDecodeStream
  | dDrain
  | dRun
deriving DecidableEq, Repr

end Sys2Proof
end

