-- ==== Sys2Proof/WellFormed.lean ====
section
/-! DEFINITION. When a command may be written to a unit: "The mnemonic's unit prefix `E.` or `D.` must match the unit"
(30_encoding R129). The operand needs no check: every `Symbol` is a legal operand of format F1 (R122). -/

namespace Sys2Proof

/-- The unit whose opcode map has the command: the mnemonic's prefix (R124, R125). -/
def Instr.unit : Instr → UnitId
  | .eNop | .eClear | .eAccum _ | .eAccumStream | .eBuildTree | .eGenCodes | .eEmitHeader | .ePack _ | .ePackStream
  | .eFinish | .ePrepare | .eDrain => .enc
  | .dNop | .dClear | .dLoadHeader | .dBuildTree | .dGenCodes | .dCheckTbc | .dWalk | .dDecodeStream | .dDrain
  | .dRun => .dec

/-- The command's format (R124, R125, column "format"). -/
def Instr.format : Instr → Format
  | .eAccum _ | .ePack _ => .f1
  | .eNop | .eClear | .eAccumStream | .eBuildTree | .eGenCodes | .eEmitHeader | .ePackStream | .eFinish | .ePrepare
  | .eDrain | .dNop | .dClear | .dLoadHeader | .dBuildTree | .dGenCodes | .dCheckTbc | .dWalk | .dDecodeStream
  | .dDrain | .dRun => .f0

/-- The command may be written to unit `u` (R129). -/
def WellFormed (u : UnitId) (i : Instr) : Bool := decide (i.unit = u)

end Sys2Proof
end

