-- ==== Sys2Proof/Decode.lean ====
section
/-! DEFINITION. Decoding and encoding of command words (30_encoding R120 to R128): the fields of a word, each unit's opcode
map, the decoder (total, rejecting by name) and, after it, the encoder. -/

namespace Sys2Proof

/-- Why a word is illegal for a unit (R126). -/
inductive DecodeError where
  | unassignedOpcode
  | reservedNotZero
  | operandNotZero
deriving DecidableEq, Repr

/-- What the decoder answers: a command, or the reason the word is illegal. -/
inductive Decoded where
  | ok (i : Instr)
  | illegal (why : DecodeError)
deriving DecidableEq, Repr

/-- One row of an opcode map; `make` takes the IMM field (R124, R125). -/
structure OpcodeRow where
  opc  : Byte
  fmt  : Format
  make : Symbol → Instr

/-- `OPC` = bits [7:0] (R120). -/
def opcField (w : Word) : Byte := w.extractLsb' 0 8

/-- `IMM` = bits [15:8], the symbol of format F1, as it stands (R120, R122). -/
def immField (w : Word) : Byte := w.extractLsb' 8 8

/-- `RSV` = bits [31:16] (R120). -/
def rsvField (w : Word) : BitVec 16 := w.extractLsb' 16 16

/-- The encoder unit's opcode map (R124). -/
def encOpcodeMap : List OpcodeRow :=
  [⟨0x00, .f0, fun _ => .eNop⟩,
   ⟨0x01, .f0, fun _ => .eClear⟩,
   ⟨0x02, .f1, .eAccum⟩,
   ⟨0x03, .f0, fun _ => .eAccumStream⟩,
   ⟨0x04, .f0, fun _ => .eBuildTree⟩,
   ⟨0x05, .f0, fun _ => .eGenCodes⟩,
   ⟨0x06, .f0, fun _ => .eEmitHeader⟩,
   ⟨0x07, .f1, .ePack⟩,
   ⟨0x08, .f0, fun _ => .ePackStream⟩,
   ⟨0x09, .f0, fun _ => .eFinish⟩,
   ⟨0x0A, .f0, fun _ => .ePrepare⟩,
   ⟨0x0E, .f0, fun _ => .eDrain⟩]

/-- The decoder unit's opcode map (R125). -/
def decOpcodeMap : List OpcodeRow :=
  [⟨0x00, .f0, fun _ => .dNop⟩,
   ⟨0x01, .f0, fun _ => .dClear⟩,
   ⟨0x02, .f0, fun _ => .dLoadHeader⟩,
   ⟨0x04, .f0, fun _ => .dBuildTree⟩,
   ⟨0x05, .f0, fun _ => .dGenCodes⟩,
   ⟨0x06, .f0, fun _ => .dCheckTbc⟩,
   ⟨0x07, .f0, fun _ => .dWalk⟩,
   ⟨0x08, .f0, fun _ => .dDecodeStream⟩,
   ⟨0x0E, .f0, fun _ => .dDrain⟩,
   ⟨0x0F, .f0, fun _ => .dRun⟩]

/-- "The two units have separate opcode spaces" (R123). -/
def opcodeMap : UnitId → List OpcodeRow
  | .enc => encOpcodeMap
  | .dec => decOpcodeMap

/-- A row read with the other two fields: illegal when RSV is not 0, or when IMM is not 0 in format F0 (R126). -/
def OpcodeRow.read (row : OpcodeRow) (imm : Byte) (rsv : BitVec 16) : Decoded :=
  if rsv ≠ 0 then .illegal .reservedNotZero
  else if row.fmt = .f0 ∧ imm ≠ 0 then .illegal .operandNotZero
  else .ok (row.make imm)

/-- The command a word written to unit `u` carries; "A decoder of command words can decide legality from the word and
the unit alone" (R126). -/
def decode (u : UnitId) (w : Word) : Decoded :=
  match (opcodeMap u).find? (fun row => decide (row.opc = opcField w)) with
  | none => .illegal .unassignedOpcode
  | some row => row.read (immField w) (rsvField w)

/-- The command's opcode (R124, R125, column "OPC"). -/
def Instr.opcode : Instr → Byte
  | .eNop => 0x00
  | .eClear => 0x01
  | .eAccum _ => 0x02
  | .eAccumStream => 0x03
  | .eBuildTree => 0x04
  | .eGenCodes => 0x05
  | .eEmitHeader => 0x06
  | .ePack _ => 0x07
  | .ePackStream => 0x08
  | .eFinish => 0x09
  | .ePrepare => 0x0A
  | .eDrain => 0x0E
  | .dNop => 0x00
  | .dClear => 0x01
  | .dLoadHeader => 0x02
  | .dBuildTree => 0x04
  | .dGenCodes => 0x05
  | .dCheckTbc => 0x06
  | .dWalk => 0x07
  | .dDecodeStream => 0x08
  | .dDrain => 0x0E
  | .dRun => 0x0F

/-- The command's IMM field: the symbol in format F1, 0 in format F0 (R121). -/
def Instr.operand : Instr → Byte
  | .eAccum sym | .ePack sym => sym
  | .eNop | .eClear | .eAccumStream | .eBuildTree | .eGenCodes | .eEmitHeader | .ePackStream | .eFinish | .ePrepare
  | .eDrain | .dNop | .dClear | .dLoadHeader | .dBuildTree | .dGenCodes | .dCheckTbc | .dWalk | .dDecodeStream
  | .dDrain | .dRun => 0

/-- The command word: `{RSV = 0, IMM, OPC}` (R120, R121). -/
def encode (i : Instr) : Word := (0 : BitVec 16) ++ i.operand ++ i.opcode

/-- The 32-bit word the opcode table's bits stand for: bits at `nbits` and above are 0. -/
def tableWord (nbits w : Nat) : Word := BitVec.ofNat 32 (w % 2 ^ nbits)

/-- The unit the word is read for when only the word is known: ENC where its map has the word, else DEC. DESIGN CHOICE
(log entry 2): a word does not say which unit it is written to (R123). -/
def tableUnit (nbits w : Nat) : UnitId :=
  match decode .enc (tableWord nbits w) with
  | .ok _ => .enc
  | .illegal _ =>
    match decode .dec (tableWord nbits w) with
    | .ok _ => .dec
    | .illegal _ => .enc

/-- The command the decoder reads from a word of the opcode table, for the unit `tableUnit` picks (log entry 2). -/
def decodeTableWord (nbits w : Nat) : Option Instr :=
  if 32 < nbits then none
  else
    match decode (tableUnit nbits w) (tableWord nbits w) with
    | .ok i => some i
    | .illegal _ => none

end Sys2Proof
end

