-- ==== Sys2Proof/Machine/State.lean ====
section
/-! DEFINITION. The state of the hardware: two units (10_state R30, R31), each with its registers, memories, hidden
sequencing state and streams, and the model's own bookkeeping of whose move comes next and what the host got back; and the
state after reset (R66, 70_reset R350). Everything is plain data. -/

namespace Sys2Proof.Machine

/-- A token of a stream: `Byte(b)` or `EOS` (00_scope R16, 20_memory R100). -/
inductive Token where
  | byte (b : Byte)
  | eos
deriving DecidableEq, Repr

/-- The values of PHASE by name, both units' names together (10_state R36). The reserved values 7..14, "never taken by any
rule", have no constructor (93_implementation_defined U7, log entry 18). -/
inductive Phase where
  | idle
  | counting
  | ready
  | headerLoaded
  | treeBuilt
  | codesReady
  | headerSent
  | packing
  | decoding
  | finished
  | done
  | error
deriving DecidableEq, Repr

/-- The error causes (60_exceptions R311). -/
inductive Cause where
  | illegalCmd
  | sequence
  | cmdOverrun
  | countOverflow
  | passMismatch
  | truncatedHeader
  | missingTbc
  | tbcMismatch
  | incompleteCode
deriving DecidableEq, Repr

/-- The fields of ERR_CAUSE (10_state R41). -/
structure ErrCause where
  code : Byte
  opc  : Byte
  kind : BitVec 4
deriving DecidableEq, Repr

/-- An entry of NODE: weight and, for an internal node, the two child indices (10_state R60). A leaf has no children; its
`l` and `r` are held at 0 and nothing reads them (log entry 19). -/
structure Node where
  w : Weight
  l : NodeIdx
  r : NodeIdx
deriving DecidableEq, Repr

/-- An entry of CODE: length and right-aligned pattern (10_state R61). -/
structure Code where
  len : Byte
  pat : Pattern
deriving DecidableEq, Repr

/-- The part of a unit's state that both units have (10_state R31, R32, R59 to R63). -/
structure Common where
  /-- PHASE (R36) -/
  phase     : Phase
  /-- STATUS.BUSY (R37, R38) -/
  busy      : Bool
  /-- STATUS.DONE (R37, R38) -/
  done      : Bool
  /-- ERR_CAUSE (R41) -/
  errCause  : ErrCause
  /-- IRQ_EN.DONE_IE (R42) -/
  doneIe    : Bool
  /-- IRQ_EN.ERR_IE (R42) -/
  errIe     : Bool
  /-- TBC.CALC_TBC (R43) -/
  calcTbc   : BitVec 4
  /-- TBC.AUX_TBC: FIN_TBC in ENC, STORED_TBC in DEC (R43) -/
  auxTbc    : Byte
  /-- TBC.AUX_VALID (R43) -/
  auxValid  : Bool
  /-- TOTAL_BITS (R44) -/
  totalBits : Counter
  /-- IN_BYTES (R45) -/
  inBytes   : Counter
  /-- OUT_BYTES (R46) -/
  outBytes  : Counter
  /-- CT_SEL (R50) -/
  ctSel     : Symbol
  /-- NODE_SEL (R53) -/
  nodeSel   : NodeIdx
  /-- COUNT (R59) -/
  count     : Vector (BitVec 32) 256
  /-- NODE (R60) -/
  node      : Vector Node 511
  /-- CODE (R61) -/
  code      : Vector Code 256
  /-- CUR, the accepted command word (R63) -/
  cur       : Word
  /-- STAGE of a macro command, 0..4 (R63) -/
  stage     : Nat
  /-- The model's own: the command in CUR has taken a micro-step and goes on (log entry 5) -/
  begun     : Bool
  /-- The model's own: a CLEAR has completed since reset, so COUNT is specified in ERROR too (log entry 6) -/
  countInit : Bool
  /-- the input stream, oldest token first (20_memory R100, R102) -/
  input     : List Token
  /-- the output stream, oldest token first (R100, R105) -/
  output    : List Token
deriving DecidableEq, Repr

/-- The encoder unit: the common part and the bit packer (10_state R47, R49). -/
structure Enc where
  core       : Common
  /-- PK_ACC (R47) -/
  pkAcc      : Byte
  /-- PK_PEND, 0..8 (R47) -/
  pkPend     : BitVec 4
  /-- PACKED_BITS (R49) -/
  packedBits : Counter
deriving DecidableEq, Repr

/-- The decoder unit: the common part, the header loader and the bit reader (10_state R40, R48, R49, R63). -/
structure Dec where
  core         : Common
  /-- HDR_IDX, 0..1024 (R63) -/
  hdrIdx       : Nat
  /-- BR_BUF (R48) -/
  brBuf        : Byte
  /-- BR_CNT, 0..8 (R48) -/
  brCnt        : BitVec 4
  /-- BR_LAST (R48) -/
  brLast       : Bool
  /-- WALK_NODE (R48) -/
  walkNode     : NodeIdx
  /-- CONSUMED_BITS (R49) -/
  consumedBits : Counter
  /-- STATUS.EOP (R40) -/
  eop          : Bool
deriving DecidableEq, Repr

/-- One interaction of the host or the platform with the hardware (70_reset R370). `width` is the access width in bits;
`send` gives the port's `data` and `eos` signals (20_memory R101); `forward` moves ENC's oldest output token to DEC's input
(R368); `busRead` and `busWrite` name a system bus address instead of a unit and an offset (00_scope R12). -/
inductive HostMove where
  | read (u : UnitId) (off : BitVec 12) (width : Nat)
  | write (u : UnitId) (off : BitVec 12) (width : Nat) (v : Word)
  | busRead (addr width : Nat)
  | busWrite (addr width : Nat) (v : Word)
  | send (u : UnitId) (data : Byte) (eos : Bool)
  | take (u : UnitId)
  | forward
  | reset
deriving DecidableEq, Repr

/-- One entry of the agenda: a unit's turn to take a micro-step, or a move of the host (40_command_model R157). -/
inductive Move where
  | unit (u : UnitId)
  | host (a : HostMove)
deriving DecidableEq, Repr

/-- What the host gets back from a move (70_reset R370, last column; 20_memory R91). -/
inductive Reply where
  /-- a register read's value -/
  | value (v : Word)
  /-- a register write was carried out or ignored without error -/
  | written
  /-- a bus error on a write -/
  | writeError
  /-- a bus error on a read, which "returns 0" -/
  | readError (v : Word)
  /-- the output token taken -/
  | token (t : Token)
  /-- the output stream was empty: no token passed -/
  | noToken
deriving DecidableEq, Repr

/-- The whole machine. `enc` and `dec` are the hardware; the other fields are the model's own (log entries 1, 7, 14). -/
structure State where
  /-- the encoder unit -/
  enc     : Enc
  /-- the decoder unit -/
  dec     : Dec
  /-- the moves still to come, in order: the interleaving of R157 as plain data -/
  agenda  : List Move
  /-- the unit that moves next when the agenda is empty -/
  turn    : UnitId
  /-- what the host got back, oldest first -/
  replies : List Reply
  /-- how many unspecified reads have been answered: the index of the next free value -/
  draws   : Nat
deriving DecidableEq, Repr

/-- Why the machine stops. A unit's error is NOT one of these: it is error entry, a next state (60_exceptions R320). -/
inductive Fault where
  /-- Raised by `busMove` for a system bus access at an address in neither unit's bank: this hardware has nothing there
  (20_memory R90). Safe: the model stops where the rest of the platform would answer. -/
  | noBankAtAddress
deriving DecidableEq, Repr

/-- Why an instruction has no meaning in the model. -/
inductive Refusal where
  /-- Raised by an arm of `exec` whose command has no meaning yet; no arm of this model is left so. Safe: nothing runs. -/
  | notModelled (mnemonic : String)
deriving DecidableEq, Repr

/-- NODE index of the root: 510 (00_scope R11). -/
def rootNode : NodeIdx := 510

/-- A unit's common part after reset (R66). COUNT, NODE, CODE (unspecified) and CUR, STAGE (meaningless) are held at 0:
DESIGN CHOICE, log entries 3 and 4. -/
def Common.reset : Common :=
  { phase := .idle, busy := false, done := false, errCause := ⟨0, 0, 0⟩, doneIe := false, errIe := false,
    calcTbc := 0, auxTbc := 0, auxValid := false, totalBits := 0, inBytes := 0, outBytes := 0, ctSel := 0, nodeSel := 0,
    count := Vector.replicate 256 0, node := Vector.replicate 511 ⟨0, 0, 0⟩, code := Vector.replicate 256 ⟨0, 0⟩,
    cur := 0, stage := 0, begun := false, countInit := false, input := [], output := [] }

/-- The encoder unit after reset (R66). -/
def Enc.reset : Enc := { core := Common.reset, pkAcc := 0, pkPend := 0, packedBits := 0 }

/-- The decoder unit after reset (R66); HDR_IDX (meaningless) is held at 0, log entry 4. -/
def Dec.reset : Dec :=
  { core := Common.reset, hdrIdx := 0, brBuf := 0, brCnt := 0, brLast := false, walkNode := rootNode, consumedBits := 0,
    eop := false }

/-- The machine after reset (R66, 70_reset R350): both units reset, no move pending, nothing sent back. -/
def State.reset : State :=
  { enc := Enc.reset, dec := Dec.reset, agenda := [], turn := .enc, replies := [], draws := 0 }

end Sys2Proof.Machine
end

