-- ==== Sys2Proof/Machine/Operands.lean ====
section
/-! DEFINITION. Where a command's data comes from: a stream token looked at with `peek` (00_scope R16), and the entries of
COUNT, NODE and CODE (R15). The symbol operand of format F1 is decoded into the instruction (30_encoding R122). -/

namespace Sys2Proof.Machine

/-- `peek(k)`: the k-th unconsumed token, `none` while fewer than k+1 are present, which makes the micro-step hold
(00_scope R16, 20_memory R106). -/
def Common.peek (c : Common) (k : Nat) : Option Token := c.input[k]?

/-- `COUNT[s]` (10_state R59). -/
def Common.countAt (c : Common) (s : Symbol) : BitVec 32 := c.count[s.toNat]

/-- `COUNT[s] <- v`. -/
def Common.setCount (c : Common) (s : Symbol) (v : BitVec 32) : Common := { c with count := c.count.set s.toNat v }

/-- `NODE[n]` of a node memory; the index 511 names no node and reads as zeros (10_state R53, R60). -/
def nodeOf (node : Vector Node 511) (n : NodeIdx) : Node := node.toList[n.toNat]?.getD ⟨0, 0, 0⟩

/-- `NODE[n]` (R60). -/
def Common.nodeAt (c : Common) (n : NodeIdx) : Node := nodeOf c.node n

/-- `CODE[s]` (R61). -/
def Common.codeAt (c : Common) (s : Symbol) : Code := c.code[s.toNat]

/-- The token a port beat carries: "a token with `eos` = 1 is `EOS` and its `data` is ignored" (20_memory R101). -/
def Token.ofPort (data : Byte) (eos : Bool) : Token := if eos then .eos else .byte data

end Sys2Proof.Machine
end

