-- ==== Sys2Proof/Machine/Flags.lean ====
section
/-! DEFINITION. Every status computation of the spec: ERR, the code of PHASE, the STATUS and ERR_CAUSE words, the interrupt
output, the trailing-bit-count map, and when the tree and the code table are valid. -/

namespace Sys2Proof.Machine

/-- ERR: "equals 1 exactly when `PHASE` = 15 (ERROR)" (10_state R39). -/
def Common.err (c : Common) : Bool := decide (c.phase = .error)

/-- The 4-bit value of PHASE (10_state R36). Only TREE_BUILT and CODES_READY differ between the units. -/
def Phase.value (u : UnitId) : Phase → BitVec 4
  | .idle => 0
  | .counting => 1
  | .ready => 1
  | .headerLoaded => 2
  | .treeBuilt => match u with | .enc => 2 | .dec => 3
  | .codesReady => match u with | .enc => 3 | .dec => 4
  | .headerSent => 4
  | .packing => 5
  | .decoding => 5
  | .finished => 6
  | .done => 6
  | .error => 15

/-- The phases unit `u` has (10_state R36). -/
def Phase.legal (u : UnitId) : Phase → Bool
  | .idle => true
  | .counting => decide (u = .enc)
  | .ready => decide (u = .dec)
  | .headerLoaded => decide (u = .dec)
  | .treeBuilt => true
  | .codesReady => true
  | .headerSent => decide (u = .enc)
  | .packing => decide (u = .enc)
  | .decoding => decide (u = .dec)
  | .finished => decide (u = .enc)
  | .done => decide (u = .dec)
  | .error => true

/-- The one-bit field of a flag. -/
def bit (b : Bool) : BitVec 1 := BitVec.ofBool b

/-- The STATUS word: BUSY 0, DONE 1, ERR 2, EOP 3, 7:4 zero, PHASE 11:8, 31:12 zero (10_state R37). -/
def statusWord (u : UnitId) (c : Common) (eop : Bool) : Word :=
  (0 : BitVec 20) ++ c.phase.value u ++ (0 : BitVec 4) ++ bit eop ++ bit c.err ++ bit c.done ++ bit c.busy

/-- The ERR_CAUSE word: CODE 7:0, OPC 15:8, KIND 19:16, 31:20 zero (10_state R41). -/
def ErrCause.word (e : ErrCause) : Word := (0 : BitVec 12) ++ e.kind ++ e.opc ++ e.code

/-- The IRQ_EN word: DONE_IE bit 0, ERR_IE bit 1 (10_state R42). -/
def irqEnWord (c : Common) : Word := (0 : BitVec 30) ++ bit c.errIe ++ bit c.doneIe

/-- The TBC word: CALC_TBC 3:0, AUX_TBC 15:8, AUX_VALID 16 (10_state R43). -/
def tbcWord (c : Common) : Word :=
  (0 : BitVec 15) ++ bit c.auxValid ++ c.auxTbc ++ (0 : BitVec 4) ++ c.calcTbc

/-- The interrupt output: `irq = (STATUS.DONE and IRQ_EN.DONE_IE) or (STATUS.ERR and IRQ_EN.ERR_IE)` (60_exceptions R330). -/
def Common.irq (c : Common) : Bool := (c.done && c.doneIe) || (c.err && c.errIe)

/-- `TBC(t) = if t mod 8 = 0 then 8 else t mod 8` (30_encoding R137, 42_tree_codes R207). -/
def tbcOf (t : Counter) : BitVec 4 := if t.toNat % 8 = 0 then 8 else BitVec.ofNat 4 (t.toNat % 8)

/-- The phases in which NODE is valid, per unit (10_state R62). -/
def treeValid (u : UnitId) (p : Phase) : Bool :=
  match u with
  | .enc => decide (p ∈ [Phase.treeBuilt, .codesReady, .headerSent, .packing, .finished])
  | .dec => decide (p ∈ [Phase.treeBuilt, .codesReady, .decoding, .done])

/-- The phases in which CODE is valid, per unit (10_state R62). -/
def codesValid (u : UnitId) (p : Phase) : Bool :=
  match u with
  | .enc => decide (p ∈ [Phase.codesReady, .headerSent, .packing, .finished])
  | .dec => decide (p ∈ [Phase.codesReady, .decoding, .done])

end Sys2Proof.Machine
end

