-- ==== Sys2Proof/Machine/Ops.lean ====
section
/-! DEFINITION. The shared operations of the command cycle: consuming and emitting tokens (00_scope R16), taking an error
(60_exceptions R320) and what a command word does when it is written (40_command_model R150 to R153), completion and
hand-over (R158, 45_encoder_control R276), the phase check (R154, R155), the CLEAR and DRAIN work both units share, and how
a micro-step becomes the next state. -/

namespace Sys2Proof.Machine

/-! ### Streams -/

/-- What a token adds to IN_BYTES or OUT_BYTES: "EOS tokens are not counted" (10_state R45, R46). -/
def Token.bytes : Token → Counter
  | .byte _ => 1
  | .eos => 0

/-- `consume()`: removes `peek(0)` and counts a byte token in IN_BYTES (00_scope R16). -/
def Common.consume (c : Common) : Common :=
  match c.input with
  | [] => c
  | t :: rest => { c with input := rest, inBytes := c.inBytes + t.bytes }

/-- `emit(t)`: appends to the output stream and counts a byte token in OUT_BYTES; it never holds (00_scope R16,
20_memory R105). -/
def Common.emit (c : Common) (t : Token) : Common :=
  { c with output := c.output ++ [t], outBytes := c.outBytes + t.bytes }

/-- `emit(Byte(b))` for each byte of a list, oldest first. -/
def Common.emitBytes (c : Common) (bs : List Byte) : Common :=
  { c with output := c.output ++ bs.map .byte, outBytes := c.outBytes + BitVec.ofNat 64 bs.length }

/-! ### Taking an error -/

/-- `ERR_CAUSE.CODE` of a cause (60_exceptions R311). -/
def Cause.code : Cause → Byte
  | .illegalCmd => 0x01
  | .sequence => 0x02
  | .cmdOverrun => 0x03
  | .countOverflow => 0x10
  | .passMismatch => 0x11
  | .truncatedHeader => 0x20
  | .missingTbc => 0x21
  | .tbcMismatch => 0x22
  | .incompleteCode => 0x23

/-- `ERR_CAUSE.KIND` of a cause (60_exceptions R311, R312). -/
def Cause.kind : Cause → BitVec 4
  | .illegalCmd => 3
  | .sequence => 3
  | .cmdOverrun => 3
  | .countOverflow => 4
  | .passMismatch => 4
  | .truncatedHeader => 1
  | .missingTbc => 1
  | .tbcMismatch => 2
  | .incompleteCode => 2

/-- Error entry (60_exceptions R320): ERR_CAUSE is written only when ERR was 0, PHASE becomes ERROR (and with it ERR 1),
BUSY falls; everything else stays. -/
def Common.errorEntry (c : Common) (k : Cause) (opc : Byte) : Common :=
  { c with errCause := if c.err then c.errCause else ⟨k.code, opc, k.kind⟩, phase := .error, busy := false }

/-- `raise k` inside a command: error entry with OPC = CUR[7:0] (00_scope R17, 60_exceptions R320). -/
def Common.raise (c : Common) (k : Cause) : Common := c.errorEntry k (opcField c.cur)

/-- Command overrun by the word `w` (40_command_model R152). -/
def Common.overrun (c : Common) (w : Word) : Common := c.errorEntry .cmdOverrun (opcField w)

/-! ### A word written to CMD -/

/-- Acceptance: `CUR <- w; BUSY <- 1; DONE <- 0` (40_command_model R151); `begun` is the model's own (log entry 5). -/
def Common.accept (c : Common) (w : Word) : Common := { c with cur := w, busy := true, done := false, begun := false }

/-- The words that act in ERROR: exactly NOP, CLEAR and DRAIN (40_command_model R150). -/
def actsInError (w : Word) : Bool := decide (w = 0x00000000 ∨ w = 0x00000001 ∨ w = 0x0000000E)

/-- A host write of `w` to CMD: overrun, ignored, or accepted, tried in that order (40_command_model R150 to R153). -/
def Common.cmdWrite (c : Common) (w : Word) : Common :=
  if c.busy then c.overrun w
  else if c.err && !actsInError w then c
  else c.accept w

/-! ### Completion and hand-over -/

/-- `complete`: PHASE takes the completion phase, `BUSY <- 0; DONE <- 1` (40_command_model R158). -/
def Common.complete (c : Common) (p : Phase) : Common := { c with phase := p, busy := false, done := true }

/-- The command goes on after this micro-step. -/
def Common.goOn (c : Common) : Common := { c with begun := true }

/-- The hand-over inside a macro: PHASE takes the sub-command's completion phase, STAGE advances, BUSY stays 1 and DONE 0
(45_encoder_control R276, 46_decoder_control R295). -/
def Common.handOver (c : Common) (p : Phase) (st : Nat) : Common := { c with phase := p, stage := st }

/-- The stage a macro is in: STAGE 0 in its first micro-step (R276, R295, log entry 5). -/
def Common.stageNow (c : Common) : Nat := if c.begun then c.stage else 0

/-! ### Micro-steps -/

/-- What one micro-step of a command's body comes to, for a unit of type `α`. -/
inductive Body (α : Type) where
  /-- it holds: no step now, no state changed (00_scope R17) -/
  | hold
  /-- it has run, and the command goes on -/
  | more (a : α)
  /-- it has run, and the body is at its end, with the command's completion phase -/
  | fin (a : α) (p : Phase)
  /-- it has raised an error: error entry is done -/
  | raised (a : α)
deriving DecidableEq, Repr

/-- A body on the common part as a body on the whole unit. -/
def Body.lift {α β : Type} (put : α → β) : Body α → Body β
  | .hold => .hold
  | .more a => .more (put a)
  | .fin a p => .fin (put a) p
  | .raised a => .raised (put a)

/-- The common part put back into ENC. -/
def Enc.withCore (e : Enc) (c : Common) : Enc := { e with core := c }

/-- The common part put back into DEC. -/
def Dec.withCore (d : Dec) (c : Common) : Dec := { d with core := c }

/-- `raise k` in ENC. -/
def Enc.raise (e : Enc) (k : Cause) : Enc := e.withCore (e.core.raise k)

/-- `raise k` in DEC. -/
def Dec.raise (d : Dec) (k : Cause) : Dec := d.withCore (d.core.raise k)

/-- The phase requirement: in any other phase the micro-step raises SEQUENCE "before any other effect"
(40_command_model R154, R155; log entry 8). -/
def Enc.inPhase (e : Enc) (ps : List Phase) (b : Body Enc) : Body Enc :=
  if e.core.phase ∈ ps then b else .raised (e.raise .sequence)

/-- The same in DEC. -/
def Dec.inPhase (d : Dec) (ps : List Phase) (b : Body Dec) : Body Dec :=
  if d.core.phase ∈ ps then b else .raised (d.raise .sequence)

/-- A sub-command's body inside E.PREPARE: at its end it hands over to stage `st` (45_encoder_control R276). -/
def Body.handOverEnc (st : Nat) : Body Enc → Body Enc
  | .hold => .hold
  | .more e => .more e
  | .fin e p => .more (e.withCore (e.core.handOver p st))
  | .raised e => .raised e

/-- A sub-command's body inside D.RUN (46_decoder_control R295). -/
def Body.handOverDec (st : Nat) : Body Dec → Body Dec
  | .hold => .hold
  | .more d => .more d
  | .fin d p => .more (d.withCore (d.core.handOver p st))
  | .raised d => .raised d

/-- One micro-step of an ENC command as the machine's next state: only ENC changes (10_state R30). -/
def runEnc (s : State) : Body Enc → Host.Outcome State Fault Refusal
  | .hold => .next s
  | .more e => .next { s with enc := e.withCore e.core.goOn }
  | .fin e p => .next { s with enc := e.withCore (e.core.complete p) }
  | .raised e => .next { s with enc := e }

/-- One micro-step of a DEC command as the machine's next state: only DEC changes (10_state R30). -/
def runDec (s : State) : Body Dec → Host.Outcome State Fault Refusal
  | .hold => .next s
  | .more d => .next { s with dec := d.withCore d.core.goOn }
  | .fin d p => .next { s with dec := d.withCore (d.core.complete p) }
  | .raised d => .next { s with dec := d }

/-! ### Work both units share -/

/-- What CLEAR does to the common part, without `complete`: counts, counters, TBC fields and ERR_CAUSE to 0; PHASE leaves
ERROR at `complete`, which clears ERR (45_encoder_control R271, 46_decoder_control R291). Neither stream is touched. -/
def Common.clearBody (c : Common) : Common :=
  { c with count := Vector.replicate 256 0, totalBits := 0, inBytes := 0, outBytes := 0, calcTbc := 0, auxTbc := 0,
           auxValid := false, errCause := ⟨0, 0, 0⟩, countInit := true }

/-- One micro-step of DRAIN: consumes one token, and ends at an EOS with PHASE as it is (45_encoder_control R278). -/
def Common.drainBody (c : Common) : Body Common :=
  match c.peek 0 with
  | none => .hold
  | some .eos => .fin c.consume c.phase
  | some (.byte _) => .more c.consume

/-! ### Whose move it is -/

/-- The other unit. -/
def otherUnit : UnitId → UnitId
  | .enc => .dec
  | .dec => .enc

/-- The next move, and the state with it taken off: the agenda's head, or, when the agenda is empty, the units in turn
(40_command_model R157, log entry 1). -/
def takeTurn (s : State) : Move × State :=
  match s.agenda with
  | [] => (.unit s.turn, { s with turn := otherUnit s.turn })
  | m :: rest => (m, { s with agenda := rest })

/-- The common part of a unit. -/
def State.core (s : State) : UnitId → Common
  | .enc => s.enc.core
  | .dec => s.dec.core

/-- The state with a unit's common part replaced. -/
def State.setCore (s : State) (u : UnitId) (c : Common) : State :=
  match u with
  | .enc => { s with enc := s.enc.withCore c }
  | .dec => { s with dec := s.dec.withCore c }

/-- What a unit does when it has the move. -/
inductive Fetched where
  /-- BUSY = 0: it "takes no steps and changes no state" (60_exceptions R340) -/
  | idle
  /-- the accepted word is illegal: it raises ILLEGAL_CMD (30_encoding R126, 40_command_model R150) -/
  | illegal
  /-- it takes a micro-step of this command -/
  | run (i : Instr)
deriving DecidableEq, Repr

/-- The command a unit is running: CUR, decoded with the unit's own map (30_encoding R123). -/
def fetch (u : UnitId) (s : State) : Fetched :=
  if (s.core u).busy then
    match decode u (s.core u).cur with
    | .ok i => .run i
    | .illegal _ => .illegal
  else .idle

/-- The error entry of an illegal word, the unit's first micro-step (40_command_model R150). -/
def raiseIllegal (u : UnitId) (s : State) : State := s.setCore u ((s.core u).raise .illegalCmd)

/-- The word `w` accepted by unit `u`, which has the very next move: stands for a host's CMD write followed by the unit's
first micro-step (log entry 2). -/
def placeCommand (u : UnitId) (w : Word) (s : State) : State :=
  { s.setCore u ((s.core u).accept w) with agenda := .unit u :: s.agenda }

end Sys2Proof.Machine
end

