-- ==== Sys2Proof/Machine/Frequency.lean ====
section
/-! DEFINITION. The frequency accumulator and the header loader (41_frequency): E.ACCUM, E.ACCUM_STREAM, D.LOAD_HEADER. -/

namespace Sys2Proof.Machine

/-- One occurrence of `sym`: raises COUNT_OVERFLOW when the count is already 2^32 − 1, else counts it, "32-bit, never
wraps" (41_frequency R181). -/
def Enc.countOne (e : Enc) (sym : Symbol) (next : Enc → Body Enc) : Body Enc :=
  if e.core.countAt sym = 0xFFFFFFFF then .raised (e.raise .countOverflow)
  else next (e.withCore (e.core.setCount sym (e.core.countAt sym + 1)))

/-- E.ACCUM (R181). -/
def execEAccum (sym : Symbol) (s : State) : Host.Outcome State Fault Refusal :=
  runEnc s (s.enc.inPhase [.counting] (s.enc.countOne sym fun e => .fin e .counting))

/-- One micro-step of E.ACCUM_STREAM: an EOS ends it; a byte is consumed and then counted, so it "stays consumed" on an
overflow (R182). -/
def Enc.accumStreamBody (e : Enc) : Body Enc :=
  match e.core.peek 0 with
  | none => .hold
  | some .eos => .fin (e.withCore e.core.consume) .counting
  | some (.byte b) => (e.withCore e.core.consume).countOne b fun e' => .more e'

/-- E.ACCUM_STREAM (R182). -/
def execEAccumStream (s : State) : Host.Outcome State Fault Refusal :=
  runEnc s (s.enc.inPhase [.counting] s.enc.accumStreamBody)

/-- `COUNT[s][31-8k : 24-8k] <- b`: byte `k` of a count, `k` = 0 the most significant (R183, R184). -/
def setCountByte (v : BitVec 32) (k : Nat) (b : Byte) : BitVec 32 :=
  (v &&& ~~~((0xFF : BitVec 32) <<< (24 - 8 * k))) ||| (b.setWidth 32 <<< (24 - 8 * k))

/-- A header byte put at HDR_IDX: symbol `HDR_IDX div 4`, byte `HDR_IDX mod 4` (R184). -/
def Common.loadHeaderByte (c : Common) (idx : Nat) (b : Byte) : Common :=
  c.setCount (BitVec.ofNat 8 (idx / 4)) (setCountByte (c.countAt (BitVec.ofNat 8 (idx / 4))) (idx % 4) b)

/-- One micro-step of D.LOAD_HEADER: the first sets `HDR_IDX <- 0` (log entry 9); each later one consumes one token, a byte
going into COUNT, an EOS raising TRUNCATED_HEADER; the 1024th byte ends it (R184). -/
def Dec.loadHeaderBody (d : Dec) : Body Dec :=
  if d.core.begun then
    match d.core.peek 0 with
    | none => .hold
    | some .eos => .raised ((d.withCore d.core.consume).raise .truncatedHeader)
    | some (.byte b) =>
      let d' := { d with core := d.core.consume.loadHeaderByte d.hdrIdx b, hdrIdx := d.hdrIdx + 1 }
      if d'.hdrIdx = 1024 then .fin d' .headerLoaded else .more d'
  else .more { d with hdrIdx := 0 }

/-- D.LOAD_HEADER (R184). -/
def execDLoadHeader (s : State) : Host.Outcome State Fault Refusal :=
  runDec s (s.dec.inPhase [.ready] s.dec.loadHeaderBody)

end Sys2Proof.Machine
end

