-- ==== Sys2Proof/Machine/Reader.lean ====
section
/-! DEFINITION. The bit reader and the tree walk (44_bitreader): WalkStep, and the commands D.WALK and D.DECODE_STREAM. -/

namespace Sys2Proof.Machine

/-- What one WalkStep comes to (R251). -/
inductive Walked where
  /-- a token it needs is not there: it holds -/
  | hold
  /-- a bit was taken and the walk is inside the tree -/
  | inside (d : Dec)
  /-- a bit was taken and a symbol emitted: `SymbolDone()` -/
  | symbol (d : Dec)
  /-- the payload is exhausted at the root: `EndOfPayload()`, with its `emit(EOS) ; EOP <- 1` done -/
  | ended (d : Dec)
  /-- the payload ends inside a code: INCOMPLETE_CODE is raised -/
  | cut (d : Dec)
deriving DecidableEq, Repr

/-- `2^n - 1` as a byte: the mask of the `n` low bits. -/
def lowMask (n : Nat) : Byte := BitVec.ofNat 8 (2 ^ n - 1)

/-- A payload byte, already consumed, goes into the buffer: the last one right-shifted by `8 - CALC_TBC`, which discards the
padding (R251). -/
def Dec.loadByte (d : Dec) (b : Byte) (last : Bool) : Dec :=
  if last then
    { d with brBuf := b >>> (8 - d.core.calcTbc.toNat), brCnt := d.core.calcTbc, brLast := true }
  else
    { d with brBuf := b, brCnt := 8, brLast := false }

/-- The bit part of WalkStep: takes the most significant unconsumed bit, follows the right child on 1 and the left child on
0, and emits the symbol at a leaf (R250, R251). -/
def Dec.takeBit (d : Dec) : Walked :=
  let b := d.brBuf.getLsbD (d.brCnt.toNat - 1)
  let cnt := d.brCnt - 1
  let n := if b then (d.core.nodeAt d.walkNode).r else (d.core.nodeAt d.walkNode).l
  let d' := { d with brCnt := cnt, brBuf := d.brBuf &&& lowMask cnt.toNat, consumedBits := d.consumedBits + 1 }
  if n.toNat ≤ 255 then .symbol { d' with core := d.core.emitBytes [n.setWidth 8], walkNode := rootNode }
  else .inside { d' with walkNode := n }

/-- `EndOfPayload()` without its `complete`: `emit(EOS) ; EOP <- 1` (R252). -/
def Dec.endPayload (d : Dec) : Dec := { d with core := d.core.emit .eos, eop := true }

/-- `WalkStep()` (R251): with an empty buffer it first loads a payload byte, which needs the token after it too, or ends the
payload. -/
def Dec.walkStep (d : Dec) : Walked :=
  if d.brCnt = 0 then
    match d.core.peek 0 with
    | none => .hold
    | some .eos =>
      if d.walkNode = rootNode then .ended (d.withCore d.core.consume).endPayload
      else .cut ((d.withCore d.core.consume).raise .incompleteCode)
    | some (.byte b) =>
      match d.core.peek 1 with
      | none => .hold
      | some t => ((d.withCore d.core.consume).loadByte b (decide (t = .eos))).takeBit
  else d.takeBit

/-- A micro-step of D.WALK: a symbol completes it in DECODING, the end of the payload in DONE (R252). -/
def Dec.walkBody (d : Dec) : Body Dec :=
  match d.walkStep with
  | .hold => .hold
  | .inside d' => .more d'
  | .symbol d' => .fin d' .decoding
  | .ended d' => .fin d' .done
  | .cut d' => .raised d'

/-- A micro-step of D.DECODE_STREAM: a symbol goes on with the next one, the end of the payload completes it (R253). -/
def Dec.decodeStreamBody (d : Dec) : Body Dec :=
  match d.walkStep with
  | .hold => .hold
  | .inside d' => .more d'
  | .symbol d' => .more d'
  | .ended d' => .fin d' .done
  | .cut d' => .raised d'

/-- D.WALK (R252). -/
def execDWalk (s : State) : Host.Outcome State Fault Refusal :=
  runDec s (s.dec.inPhase [.decoding] s.dec.walkBody)

/-- D.DECODE_STREAM (R253). -/
def execDDecodeStream (s : State) : Host.Outcome State Fault Refusal :=
  runDec s (s.dec.inPhase [.decoding] s.dec.decodeStreamBody)

end Sys2Proof.Machine
end

