-- ==== Sys2Proof/Machine/TreeCodes.lean ====
section
/-! DEFINITION. The tree builder and the code-table generator (42_tree_codes): TreeBuild, CodeGen, TotalBits, and the commands
E.BUILD_TREE, D.BUILD_TREE, E.GEN_CODES, D.GEN_CODES. Both units run the same functions on their own COUNT. -/

namespace Sys2Proof.Machine

/-! ### TreeBuild (R201) -/

/-- A member of the active set: a node's exact weight and its index. -/
structure Active where
  w : Nat
  n : Nat
deriving DecidableEq, Repr

/-- The total order of R201: weight first, then index. -/
def Active.before (a b : Active) : Bool :=
  Nat.blt a.w b.w || (Nat.beq a.w b.w && Nat.blt a.n b.n)

/-- The active set is kept in the order of R201, so that its head is its least member; this puts a node in its place. -/
def insertActive (a : Active) : List Active → List Active
  | [] => [a]
  | b :: rest =>
    match b.before a with
    | true => b :: insertActive a rest
    | false => a :: b :: rest

/-- The internal nodes made by `k` merges, in creation order, the first with index `m`: the two least members of the active
set become the left and the right child of node `m`, whose weight is their sum, and `m` joins the set (R201). The sum is
exact and narrowed to 40 bits only in the node (R200). -/
def mergeNodes : (k m : Nat) → List Active → List Node
  | 0, _, _ => []
  | _ + 1, _, [] => []
  | _ + 1, _, [_] => []
  | k + 1, m, x :: y :: rest =>
    ⟨BitVec.ofNat 40 (x.w + y.w), BitVec.ofNat 9 x.n, BitVec.ofNat 9 y.n⟩ ::
      mergeNodes k (m + 1) (insertActive ⟨x.w + y.w, m⟩ rest)

/-- The leaves NODE[0..255]: weight the symbol's count, 40 bits (R200, R201). -/
def leafNodes (count : Vector (BitVec 32) 256) : List Node := count.toList.map fun c => ⟨c.setWidth 40, 0, 0⟩

/-- The 256 leaves as members of the active set, by index. -/
def leafActives (count : Vector (BitVec 32) 256) : List Active :=
  count.toList.zipIdx.map fun p => ⟨p.1.toNat, p.2⟩

/-- The active set before the first merge: all 256 leaves, in order (R201). -/
def firstActives (count : Vector (BitVec 32) 256) : List Active := (leafActives count).foldr insertActive []

/-- The 511 nodes of `TreeBuild(count)` in index order: the leaves, then the internal nodes 256..510 (R200, R201). -/
def treeNodes (count : Vector (BitVec 32) 256) : List Node :=
  leafNodes count ++ mergeNodes 255 256 (firstActives count)

theorem insertActive_length (a : Active) (l : List Active) : (insertActive a l).length = l.length + 1 := by
  induction l with
  | nil => rfl
  | cons b rest ih => simp only [insertActive]; split <;> simp [ih]

theorem mergeNodes_length (k m : Nat) (l : List Active) (h : k < l.length) : (mergeNodes k m l).length = k := by
  induction k generalizing m l with
  | zero => simp [mergeNodes]
  | succ k ih =>
    match l, h with
    | x :: y :: rest, h =>
      simp only [mergeNodes, List.length_cons, Nat.add_right_cancel_iff]
      exact ih _ _ (by simp only [List.length_cons, insertActive_length] at h ⊢; omega)

theorem firstActives_length (count : Vector (BitVec 32) 256) : (firstActives count).length = 256 := by
  have h : ∀ l : List Active, (l.foldr insertActive []).length = l.length := by
    intro l
    induction l with
    | nil => rfl
    | cons a l ih => simp [List.foldr, insertActive_length, ih]
  simp [firstActives, h, leafActives]

theorem treeNodes_length (count : Vector (BitVec 32) 256) : (treeNodes count).length = 511 := by
  have h := mergeNodes_length 255 256 (firstActives count) (by rw [firstActives_length]; decide)
  simp [treeNodes, leafNodes, h]

/-- `TreeBuild(C)` (R201). -/
def treeBuild (count : Vector (BitVec 32) 256) : Vector Node 511 := ⟨⟨treeNodes count⟩, treeNodes_length count⟩

/-! ### CodeGen, TotalBits (R205, R206) -/

/-- A code with one more edge: 0 for a left branch, 1 for a right one, `2·P` or `2·P + 1`, depth plus 1 (R205). -/
def Code.extend (k : Code) (right : Bool) : Code := ⟨k.len + 1, (k.pat <<< 1) ||| (BitVec.ofBool right).setWidth 255⟩

/-- The "depth-first traversal from the root, appending 0 for a left branch and 1 for a right branch, recording
(accumulated bit-pattern, depth) when a leaf is reached" (R205), from node `n` with code `k`; `fuel` bounds the depth. -/
def leafCodes (node : Vector Node 511) : (fuel : Nat) → NodeIdx → Code → List (Symbol × Code)
  | 0, _, _ => []
  | fuel + 1, n, k =>
    if n.toNat ≤ 255 then [(n.setWidth 8, k)]
    else leafCodes node fuel (nodeOf node n).l (k.extend false) ++ leafCodes node fuel (nodeOf node n).r (k.extend true)

/-- The codes of all leaves: P(510) = 0, D(510) = 0, and no leaf lies deeper than 255 (R205, R212). -/
def allLeafCodes (node : Vector Node 511) : List (Symbol × Code) := leafCodes node 256 rootNode ⟨0, 0⟩

/-- The code recorded for symbol `s`. -/
def codeIn (leaves : List (Symbol × Code)) (s : Nat) : Code :=
  match leaves.find? (fun p => Nat.beq p.1.toNat s) with
  | some p => p.2
  | none => ⟨0, 0⟩

/-- `CodeGen()`: `CODE[s] <- (D(s), P(s))` for every symbol (R205). -/
def codeGen (node : Vector Node 511) : Vector Code 256 :=
  ⟨⟨(List.range 256).map (codeIn (allLeafCodes node))⟩, by simp⟩

/-- Σ over s of COUNT[s] × CODE[s].LEN, exact (R206). -/
def totalBitsNat (count : Vector (BitVec 32) 256) (code : Vector Code 256) : Nat :=
  (List.zipWith (fun (c : BitVec 32) (k : Code) => c.toNat * k.len.toNat) count.toList code.toList).sum

/-- `TotalBits()`; its value is below 2^48, so 64 bits hold it (R206, 10_state R44). -/
def totalBitsOf (count : Vector (BitVec 32) 256) (code : Vector Code 256) : Counter :=
  BitVec.ofNat 64 (totalBitsNat count code)

/-! ### The commands -/

/-- `TreeBuild(COUNT)` into NODE (R202). -/
def Common.buildTree (c : Common) : Common := { c with node := treeBuild c.count }

/-- `CodeGen(); TOTAL_BITS <- TotalBits(); CALC_TBC <- TBC(TOTAL_BITS)` (R210, R211). -/
def Common.genCodes (c : Common) : Common :=
  let code := codeGen c.node
  let total := totalBitsOf c.count code
  { c with code := code, totalBits := total, calcTbc := tbcOf total }

/-- The body of E.BUILD_TREE (R208). -/
def Enc.buildTreeBody (e : Enc) : Body Enc :=
  e.inPhase [.counting] (.fin (e.withCore e.core.buildTree) .treeBuilt)

/-- The body of D.BUILD_TREE (R209). -/
def Dec.buildTreeBody (d : Dec) : Body Dec :=
  d.inPhase [.headerLoaded] (.fin (d.withCore d.core.buildTree) .treeBuilt)

/-- The body of E.GEN_CODES (R210). -/
def Enc.genCodesBody (e : Enc) : Body Enc :=
  e.inPhase [.treeBuilt] (.fin (e.withCore e.core.genCodes) .codesReady)

/-- The body of D.GEN_CODES (R211). -/
def Dec.genCodesBody (d : Dec) : Body Dec :=
  d.inPhase [.treeBuilt] (.fin (d.withCore d.core.genCodes) .codesReady)

/-- E.BUILD_TREE (R208). -/
def execEBuildTree (s : State) : Host.Outcome State Fault Refusal := runEnc s s.enc.buildTreeBody

/-- D.BUILD_TREE (R209). -/
def execDBuildTree (s : State) : Host.Outcome State Fault Refusal := runDec s s.dec.buildTreeBody

/-- E.GEN_CODES (R210). -/
def execEGenCodes (s : State) : Host.Outcome State Fault Refusal := runEnc s s.enc.genCodesBody

/-- D.GEN_CODES (R211). -/
def execDGenCodes (s : State) : Host.Outcome State Fault Refusal := runDec s s.dec.genCodesBody

end Sys2Proof.Machine
end

