-- ==== Sys2Proof/Machine/DecControl.lean ====
section
/-! DEFINITION. The decoder's control commands (46_decoder_control): D.NOP, D.CLEAR, D.CHECK_TBC, D.RUN, D.DRAIN. -/

namespace Sys2Proof.Machine

/-- D.NOP: `complete` with PHASE left as it is (R290). -/
def execDNop (s : State) : Host.Outcome State Fault Refusal := runDec s (.fin s.dec s.dec.core.phase)

/-- The bit reader emptied, at the root (R291, R293). -/
def Dec.rewind (d : Dec) : Dec := { d with brBuf := 0, brCnt := 0, brLast := false, walkNode := rootNode }

/-- D.CLEAR (R291). -/
def execDClear (s : State) : Host.Outcome State Fault Refusal :=
  runDec s (.fin { (s.dec.withCore s.dec.core.clearBody).rewind with consumedBits := 0, eop := false } .ready)

/-- The body of D.CHECK_TBC: an EOS raises MISSING_TBC; a byte is recorded in STORED_TBC and compared with CALC_TBC, a
different one raising TBC_MISMATCH with the record kept (R293). -/
def Dec.checkTbcBody (d : Dec) : Body Dec :=
  d.inPhase [.codesReady]
    (match d.core.peek 0 with
     | none => .hold
     | some .eos => .raised ((d.withCore d.core.consume).raise .missingTbc)
     | some (.byte v) =>
       let d' := d.withCore { d.core.consume with auxTbc := v, auxValid := true }
       if v ≠ d.core.calcTbc.setWidth 8 then .raised (d'.raise .tbcMismatch) else .fin d'.rewind .decoding)

/-- D.CHECK_TBC (R293). -/
def execDCheckTbc (s : State) : Host.Outcome State Fault Refusal := runDec s s.dec.checkTbcBody

/-- One micro-step of D.RUN: the stage's sub-command, with its phase requirement, handing over to the next stage; STAGE 4
completes at EndOfPayload (R295). -/
def Dec.runBody (d : Dec) : Body Dec :=
  match d.core.stageNow with
  | 0 => (d.inPhase [.ready] (d.withCore { d.core with stage := 0 }).loadHeaderBody).handOverDec 1
  | 1 => d.buildTreeBody.handOverDec 2
  | 2 => d.genCodesBody.handOverDec 3
  | 3 => d.checkTbcBody.handOverDec 4
  | _ => d.inPhase [.decoding] d.decodeStreamBody

/-- D.RUN (R295). -/
def execDRun (s : State) : Host.Outcome State Fault Refusal := runDec s s.dec.runBody

/-- D.DRAIN (R298). -/
def execDDrain (s : State) : Host.Outcome State Fault Refusal := runDec s (s.dec.core.drainBody.lift s.dec.withCore)

end Sys2Proof.Machine
end

