-- ==== Sys2Proof/Machine/EncControl.lean ====
section
/-! DEFINITION. The encoder's control commands (45_encoder_control): E.NOP, E.CLEAR, E.EMIT_HEADER, E.PREPARE, E.DRAIN. -/

namespace Sys2Proof.Machine

/-- E.NOP: `complete` with PHASE left as it is (R270). -/
def execENop (s : State) : Host.Outcome State Fault Refusal := runEnc s (.fin s.enc s.enc.core.phase)

/-- E.CLEAR (R271). -/
def execEClear (s : State) : Host.Outcome State Fault Refusal :=
  runEnc s (.fin { core := s.enc.core.clearBody, pkAcc := 0, pkPend := 0, packedBits := 0 } .counting)

/-- A count as 4 bytes, most significant first (30_encoding R136). -/
def countBytes (c : BitVec 32) : List Byte :=
  [c.extractLsb' 24 8, c.extractLsb' 16 8, c.extractLsb' 8 8, c.extractLsb' 0 8]

/-- The 1024 header bytes of a count table (30_encoding R136). -/
def headerBytes (count : Vector (BitVec 32) 256) : List Byte := count.toList.flatMap countBytes

/-- The body of E.EMIT_HEADER: the header, then the TBC byte (R275). -/
def Enc.emitHeaderBody (e : Enc) : Body Enc :=
  e.inPhase [.codesReady]
    (.fin (e.withCore (e.core.emitBytes (headerBytes e.core.count ++ [e.core.calcTbc.setWidth 8]))) .headerSent)

/-- E.EMIT_HEADER (R275). -/
def execEEmitHeader (s : State) : Host.Outcome State Fault Refusal := runEnc s s.enc.emitHeaderBody

/-- One micro-step of E.PREPARE: the stage's sub-command, with its phase requirement, handing over to the next stage; STAGE 2
completes (R276). -/
def Enc.prepareBody (e : Enc) : Body Enc :=
  match e.core.stageNow with
  | 0 => e.buildTreeBody.handOverEnc 1
  | 1 => e.genCodesBody.handOverEnc 2
  | _ => e.emitHeaderBody

/-- E.PREPARE (R276). -/
def execEPrepare (s : State) : Host.Outcome State Fault Refusal := runEnc s s.enc.prepareBody

/-- E.DRAIN (R278). -/
def execEDrain (s : State) : Host.Outcome State Fault Refusal := runEnc s (s.enc.core.drainBody.lift s.enc.withCore)

end Sys2Proof.Machine
end

