-- ==== Sys2Proof/Machine/Packer.lean ====
section
/-! DEFINITION. The bit packer (43_bitpacker): Append, Finish, and the commands E.PACK, E.PACK_STREAM, E.FINISH. -/

namespace Sys2Proof.Machine

/-- The bytes a flush emits from an accumulator `a` of `p` pending bits, `n` of them, oldest first:
`(a >> (p - 8*i)) & 0xFF` for i = 1..n (43_bitpacker R231). -/
def flushedBytes (a p n : Nat) : List Byte := (List.range n).map fun i => BitVec.ofNat 8 (a >>> (p - 8 * (i + 1)))

/-- `Append(len, pat)`: the accumulator is exact; the flush happens only when the pending count exceeds 8 (R231, R232). -/
def Enc.append (e : Enc) (k : Code) : Enc :=
  let a := (e.pkAcc.toNat <<< k.len.toNat) ||| k.pat.toNat
  let p := e.pkPend.toNat + k.len.toNat
  if 8 < p then
    { e with core := e.core.emitBytes (flushedBytes a p (p / 8)), pkAcc := BitVec.ofNat 8 (a &&& (2 ^ (p % 8) - 1)),
             pkPend := BitVec.ofNat 4 (p % 8), packedBits := e.packedBits + k.len.setWidth 64 }
  else
    { e with pkAcc := BitVec.ofNat 8 a, pkPend := BitVec.ofNat 4 p, packedBits := e.packedBits + k.len.setWidth 64 }

/-- E.PACK (R233). -/
def execEPack (sym : Symbol) (s : State) : Host.Outcome State Fault Refusal :=
  runEnc s (s.enc.inPhase [.headerSent, .packing] (.fin (s.enc.append (s.enc.core.codeAt sym)) .packing))

/-- One micro-step of E.PACK_STREAM: an EOS ends it; a byte is consumed and its code appended (R234). -/
def Enc.packStreamBody (e : Enc) : Body Enc :=
  match e.core.peek 0 with
  | none => .hold
  | some .eos => .fin (e.withCore e.core.consume) .packing
  | some (.byte b) => .more ((e.withCore e.core.consume).append (e.core.codeAt b))

/-- E.PACK_STREAM (R234). -/
def execEPackStream (s : State) : Host.Outcome State Fault Refusal :=
  runEnc s (s.enc.inPhase [.headerSent, .packing] s.enc.packStreamBody)

/-- The final byte: the pending bits left-aligned over zero padding, `(PK_ACC << (8 - PK_PEND)) & 0xFF` (R235). -/
def Enc.finalByte (e : Enc) : Byte := BitVec.ofNat 8 (e.pkAcc.toNat <<< (8 - e.pkPend.toNat))

/-- `Finish()` once the totals agree: the final byte if bits are pending, FIN_TBC and AUX_VALID recorded, the packer
emptied, and EOS emitted (R235). -/
def Enc.finish (e : Enc) : Enc :=
  let flushed := if 0 < e.pkPend.toNat then e.core.emitBytes [e.finalByte] else e.core
  let finTbc : Byte := if 0 < e.pkPend.toNat then e.pkPend.setWidth 8 else 8
  { e with core := Common.emit { flushed with auxTbc := finTbc, auxValid := true } .eos, pkAcc := 0, pkPend := 0 }

/-- The body of E.FINISH: PASS_MISMATCH, with nothing emitted and nothing changed, when PACKED_BITS ≠ TOTAL_BITS (R235,
R236). -/
def Enc.finishBody (e : Enc) : Body Enc :=
  if e.packedBits ≠ e.core.totalBits then .raised (e.raise .passMismatch) else .fin e.finish .finished

/-- E.FINISH (R236). -/
def execEFinish (s : State) : Host.Outcome State Fault Refusal :=
  runEnc s (s.enc.inPhase [.headerSent, .packing] s.enc.finishBody)

end Sys2Proof.Machine
end

