-- ==== Sys2Proof/Machine/Dispatch.lean ====
section
/-! DEFINITION. Machine/Dispatch.lean: exec, one arm per command. -/

namespace Sys2Proof.Machine

def exec (i : Instr) (s : State) : Host.Outcome State Fault Refusal :=
  match i with
  | .eNop => Sys2Proof.Machine.execENop s
  | .eClear => Sys2Proof.Machine.execEClear s
  | .eAccum sym => Sys2Proof.Machine.execEAccum sym s
  | .eAccumStream => Sys2Proof.Machine.execEAccumStream s
  | .eBuildTree => Sys2Proof.Machine.execEBuildTree s
  | .eGenCodes => Sys2Proof.Machine.execEGenCodes s
  | .eEmitHeader => Sys2Proof.Machine.execEEmitHeader s
  | .ePack sym => Sys2Proof.Machine.execEPack sym s
  | .ePackStream => Sys2Proof.Machine.execEPackStream s
  | .eFinish => Sys2Proof.Machine.execEFinish s
  | .ePrepare => Sys2Proof.Machine.execEPrepare s
  | .eDrain => Sys2Proof.Machine.execEDrain s
  | .dNop => Sys2Proof.Machine.execDNop s
  | .dClear => Sys2Proof.Machine.execDClear s
  | .dLoadHeader => Sys2Proof.Machine.execDLoadHeader s
  | .dBuildTree => Sys2Proof.Machine.execDBuildTree s
  | .dGenCodes => Sys2Proof.Machine.execDGenCodes s
  | .dCheckTbc => Sys2Proof.Machine.execDCheckTbc s
  | .dWalk => Sys2Proof.Machine.execDWalk s
  | .dDecodeStream => Sys2Proof.Machine.execDDecodeStream s
  | .dDrain => Sys2Proof.Machine.execDDrain s
  | .dRun => Sys2Proof.Machine.execDRun s

end Sys2Proof.Machine
end

