-- ==== Sys2Proof/Config.lean ====
section
/-! DEFINITION. What the platform and the implementation fix (00_scope R12), and the free values of the model. An `opaque`
constant has no body: no proof can see its value, so a claim holds whatever it is. -/

namespace Sys2Proof

/-- Free value: what the `n`-th read of an unspecified register answers, "a 32-bit draw per read" (20_memory R94,
93_implementation_defined U2, U3, U4). Log entry 7. -/
opaque Config.draw : Nat → Word

/-- Free value behind `ENC_BASE`. -/
opaque Config.encPage : Nat

/-- Free value behind `DEC_BASE`. -/
opaque Config.decPage : Nat

/-- `ENC_BASE`: "multiple of 4096" (R12). Log entry 13. -/
def Config.encBase : Nat := 4096 * Config.encPage

/-- `DEC_BASE`: "multiple of 4096, bank not overlapping ENC's" (R12). Log entry 13. -/
def Config.decBase : Nat :=
  4096 * (if Config.decPage = Config.encPage then Config.encPage + 1 else Config.decPage)

/-- Free value behind `IN_FIFO_DEPTH`. -/
opaque Config.inFifoExtra : Nat

/-- Free value behind `OUT_FIFO_DEPTH`. -/
opaque Config.outFifoExtra : Nat

/-- `IN_FIFO_DEPTH` ≥ 2 (R12). No rule of the model reads it: "affects timing only". Log entry 12. -/
def Config.inFifoDepth : Nat := 2 + Config.inFifoExtra

/-- `OUT_FIFO_DEPTH` ≥ 1 (R12). No rule of the model reads it: "affects timing only". Log entry 12. -/
def Config.outFifoDepth : Nat := 1 + Config.outFifoExtra

/-- `LATENCY`: unconstrained (R12, R371). No rule of the model reads it: "the model holds no time". Log entry 12. -/
opaque Config.latency : Nat

end Sys2Proof
end

