-- ==== Sys2Proof/Machine/Registers.lean ====
section
/-! DEFINITION. The host register bank (10_state R32 to R57, 20_memory R91 to R96): which register an offset names, what a
read answers, what a write does. -/

namespace Sys2Proof.Machine

/-- The registers of a bank by name (10_state R32); `reserved` is every other offset (R57). -/
inductive Reg where
  | id | version | cmd | status | errCause | irqEn | tbc
  | totalBitsLo | totalBitsHi | inBytesLo | inBytesHi | outBytesLo | outBytesHi
  | bitstate | bitsLo | bitsHi
  | ctSel | ctLen | ctPat (i : Nat)
  | nodeSel | nodeInfo | nodeWLo | nodeWHi
  | count (s : Symbol)
  | reserved
deriving DecidableEq, Repr

/-- The register at a word-aligned offset (10_state R32). -/
def regAt (off : BitVec 12) : Reg :=
  match off.toNat with
  | 0x000 => .id
  | 0x004 => .version
  | 0x008 => .cmd
  | 0x00C => .status
  | 0x010 => .errCause
  | 0x014 => .irqEn
  | 0x018 => .tbc
  | 0x020 => .totalBitsLo
  | 0x024 => .totalBitsHi
  | 0x028 => .inBytesLo
  | 0x02C => .inBytesHi
  | 0x030 => .outBytesLo
  | 0x034 => .outBytesHi
  | 0x038 => .bitstate
  | 0x040 => .bitsLo
  | 0x044 => .bitsHi
  | 0x050 => .ctSel
  | 0x054 => .ctLen
  | 0x058 => .ctPat 0
  | 0x05C => .ctPat 1
  | 0x060 => .ctPat 2
  | 0x064 => .ctPat 3
  | 0x068 => .ctPat 4
  | 0x06C => .ctPat 5
  | 0x070 => .ctPat 6
  | 0x074 => .ctPat 7
  | 0x078 => .nodeSel
  | 0x07C => .nodeInfo
  | 0x080 => .nodeWLo
  | 0x084 => .nodeWHi
  | n => if 0x400 ≤ n ∧ n < 0x800 then .count (BitVec.ofNat 8 ((n - 0x400) / 4)) else .reserved

/-- What a read of a register is: a value the spec fixes, or "an unspecified value" (10_state R51, 20_memory R94). -/
inductive RegValue where
  | exact (v : Word)
  | unspecified
deriving DecidableEq, Repr

/-- The registers a host reads exactly while BUSY = 1 (20_memory R94). CMD and the reserved offsets, which always read 0,
are among them (log entry 10). -/
def Reg.exactWhileBusy : Reg → Bool
  | .id | .version | .cmd | .status | .errCause | .irqEn | .ctSel | .nodeSel | .reserved => true
  | .tbc | .totalBitsLo | .totalBitsHi | .inBytesLo | .inBytesHi | .outBytesLo | .outBytesHi | .bitstate | .bitsLo
  | .bitsHi | .ctLen | .ctPat _ | .nodeInfo | .nodeWLo | .nodeWHi | .count _ => false

/-- The low word of a 64-bit counter. -/
def loWord (v : Counter) : Word := v.extractLsb' 0 32

/-- The high word of a 64-bit counter. -/
def hiWord (v : Counter) : Word := v.extractLsb' 32 32

/-- `ID` (10_state R33). -/
def idWord : UnitId → Word
  | .enc => 0x48454E43
  | .dec => 0x48444543

/-- `NODE_INFO` for n ≤ 510: a leaf's symbol, or an internal node's links with bit 31 set (10_state R54). -/
def nodeInfoWord (c : Common) (n : NodeIdx) : Word :=
  if n.toNat ≤ 255 then n.setWidth 32
  else (1 : BitVec 1) ++ (0 : BitVec 13) ++ (c.nodeAt n).r ++ (c.nodeAt n).l

/-- A read through the node window: 0 when NODE_SEL = 511 "names no node", unspecified when the tree is not valid
(10_state R53, R54, R55, log entry 11). -/
def nodeWindow (u : UnitId) (c : Common) (v : Word) : RegValue :=
  if c.nodeSel = 511 then .exact 0
  else if treeValid u c.phase then .exact v
  else .unspecified

/-- A read through the code window: unspecified when the code table is not valid (10_state R51, R52). -/
def codeWindow (u : UnitId) (c : Common) (v : Word) : RegValue :=
  if codesValid u c.phase then .exact v else .unspecified

/-- A read of `COUNT_s`: unspecified in IDLE after reset, "in every other phase except ERROR" the stored count; in ERROR the value
left by the failed command, which is the unspecified one of reset while no CLEAR has completed since (10_state R56, R66,
93_implementation_defined U4, log entry 6). -/
def countWindow (c : Common) (s : Symbol) : RegValue :=
  if c.phase = .idle ∨ (c.phase = .error ∧ c.countInit = false) then .unspecified else .exact (c.countAt s)

/-- `CT_PATi` = bits [32·i+31 : 32·i] of `zext_256(CODE[CT_SEL].PAT)` (10_state R52). -/
def ctPatWord (c : Common) (i : Nat) : Word := ((c.codeAt c.ctSel).pat.setWidth 256).extractLsb' (32 * i) 32

/-- What the register holds while BUSY = 0; `eop`, `bitstate` and `bits` are the unit's own (10_state R32 to R57). -/
def regIdle (u : UnitId) (c : Common) (eop : Bool) (bitstate : Word) (bits : Counter) : Reg → RegValue
  | .id => .exact (idWord u)
  | .version => .exact 0x00000001
  | .cmd => .exact 0
  | .status => .exact (statusWord u c eop)
  | .errCause => .exact c.errCause.word
  | .irqEn => .exact (irqEnWord c)
  | .tbc => .exact (tbcWord c)
  | .totalBitsLo => .exact (loWord c.totalBits)
  | .totalBitsHi => .exact (hiWord c.totalBits)
  | .inBytesLo => .exact (loWord c.inBytes)
  | .inBytesHi => .exact (hiWord c.inBytes)
  | .outBytesLo => .exact (loWord c.outBytes)
  | .outBytesHi => .exact (hiWord c.outBytes)
  | .bitstate => .exact bitstate
  | .bitsLo => .exact (loWord bits)
  | .bitsHi => .exact (hiWord bits)
  | .ctSel => .exact (c.ctSel.setWidth 32)
  | .ctLen => codeWindow u c ((c.codeAt c.ctSel).len.setWidth 32)
  | .ctPat i => codeWindow u c (ctPatWord c i)
  | .nodeSel => .exact (c.nodeSel.setWidth 32)
  | .nodeInfo => nodeWindow u c (nodeInfoWord c c.nodeSel)
  | .nodeWLo => nodeWindow u c ((c.nodeAt c.nodeSel).w.extractLsb' 0 32)
  | .nodeWHi => nodeWindow u c (((c.nodeAt c.nodeSel).w.extractLsb' 32 8).setWidth 32)
  | .count s => countWindow c s
  | .reserved => .exact 0

/-- BITSTATE in ENC: PK_ACC 7:0, PK_PEND 11:8 (10_state R47). -/
def Enc.bitstate (e : Enc) : Word := (0 : BitVec 20) ++ e.pkPend ++ e.pkAcc

/-- BITSTATE in DEC: BR_BUF 7:0, BR_CNT 11:8, BR_LAST 12, WALK_NODE 24:16 (10_state R48). -/
def Dec.bitstate (d : Dec) : Word :=
  (0 : BitVec 7) ++ d.walkNode ++ (0 : BitVec 3) ++ bit d.brLast ++ d.brCnt ++ d.brBuf

/-- What a read of register `r` of unit `u` is (20_memory R94, 10_state R32). -/
def regValue (u : UnitId) (s : State) (r : Reg) : RegValue :=
  if (s.core u).busy && !r.exactWhileBusy then .unspecified
  else
    match u with
    | .enc => regIdle .enc s.enc.core false s.enc.bitstate s.enc.packedBits r
    | .dec => regIdle .dec s.dec.core s.dec.eop s.dec.bitstate s.dec.consumedBits r

/-- A host write of `v` to register `r` (20_memory R93, R95): only CMD, STATUS bit 1, IRQ_EN, CT_SEL and NODE_SEL act. -/
def Common.regWrite (c : Common) (r : Reg) (v : Word) : Common :=
  match r with
  | .cmd => c.cmdWrite v
  | .status => { c with done := c.done && !v.getLsbD 1 }
  | .irqEn => { c with doneIe := v.getLsbD 0, errIe := v.getLsbD 1 }
  | .ctSel => { c with ctSel := v.extractLsb' 0 8 }
  | .nodeSel => { c with nodeSel := v.extractLsb' 0 9 }
  | .id | .version | .errCause | .tbc | .totalBitsLo | .totalBitsHi | .inBytesLo | .inBytesHi | .outBytesLo
  | .outBytesHi | .bitstate | .bitsLo | .bitsHi | .ctLen | .ctPat _ | .nodeInfo | .nodeWLo | .nodeWHi | .count _
  | .reserved => c

/-- A legal host access: "32 bits wide at a byte offset that is a multiple of 4" (20_memory R91). -/
def legalAccess (off : BitVec 12) (width : Nat) : Bool := decide (width = 32 ∧ off.toNat % 4 = 0)

end Sys2Proof.Machine
end

