-- ==== Sys2Proof/Machine/HostMoves.lean ====
section
/-! DEFINITION. What each move of the host does (70_reset R370): register reads and writes, tokens sent and taken, a token
forwarded from ENC to DEC, and reset. -/

namespace Sys2Proof.Machine

/-- The host gets an answer. -/
def State.reply (s : State) (r : Reply) : State := { s with replies := s.replies ++ [r] }

/-- `HostRead(off)` (00_scope R16, 20_memory R91, R93, R94): an illegal access answers a bus error and 0; an unspecified
register answers the next free value. No register changes. -/
def hostRead (u : UnitId) (off : BitVec 12) (width : Nat) (s : State) : State :=
  if legalAccess off width then
    match regValue u s (regAt off) with
    | .exact v => s.reply (.value v)
    | .unspecified => { s.reply (.value (Config.draw s.draws)) with draws := s.draws + 1 }
  else s.reply (.readError 0)

/-- `HostWrite(off, v)` (00_scope R16, 20_memory R91, R93): an illegal access answers a bus error and changes nothing. -/
def hostWrite (u : UnitId) (off : BitVec 12) (width : Nat) (v : Word) (s : State) : State :=
  if legalAccess off width then (s.setCore u ((s.core u).regWrite (regAt off) v)).reply .written
  else s.reply .writeError

/-- A token joins the end of a unit's input stream (20_memory R100). -/
def Common.receive (c : Common) (t : Token) : Common := { c with input := c.input ++ [t] }

/-- The host sends a token (70_reset R370; 20_memory R101). -/
def hostSend (u : UnitId) (data : Byte) (eos : Bool) (s : State) : State :=
  s.setCore u ((s.core u).receive (Token.ofPort data eos))

/-- The host takes the oldest output token; from an empty stream no token passes (70_reset R370, log entry 15). -/
def hostTake (u : UnitId) (s : State) : State :=
  match (s.core u).output with
  | [] => s.reply .noToken
  | t :: rest => (s.setCore u { s.core u with output := rest }).reply (.token t)

/-- The host forwards ENC's oldest output token to DEC's input (70_reset R368, log entry 15). -/
def hostForward (s : State) : State :=
  match s.enc.core.output with
  | [] => s.reply .noToken
  | t :: rest =>
    let s' := s.setCore .enc { s.enc.core with output := rest }
    (s'.setCore .dec (s'.dec.core.receive t)).reply (.token t)

/-- Reset acts on both units together (70_reset R350); the host's own side is not part of it (log entry 16). -/
def resetUnits (s : State) : State := { s with enc := Enc.reset, dec := Dec.reset }

/-- The unit and the offset a system bus address names (00_scope R12, 20_memory R97). -/
def bankAt (addr : Nat) : Option (UnitId × BitVec 12) :=
  if Config.encBase ≤ addr ∧ addr < Config.encBase + 4096 then
    some (.enc, BitVec.ofNat 12 (addr - Config.encBase))
  else if Config.decBase ≤ addr ∧ addr < Config.decBase + 4096 then
    some (.dec, BitVec.ofNat 12 (addr - Config.decBase))
  else none

/-- An access by bus address: the bank's own access, or a fault where this hardware has no bank (log entry 13). -/
def busMove (addr : Nat) (access : UnitId → BitVec 12 → State) : Host.Outcome State Fault Refusal :=
  match bankAt addr with
  | some (u, off) => .next (access u off)
  | none => .fault .noBankAtAddress

/-- One move of the host (70_reset R370). -/
def hostMove (a : HostMove) (s : State) : Host.Outcome State Fault Refusal :=
  match a with
  | .read u off width => .next (hostRead u off width s)
  | .write u off width v => .next (hostWrite u off width v s)
  | .busRead addr width => busMove addr fun u off => hostRead u off width s
  | .busWrite addr width v => busMove addr fun u off => hostWrite u off width v s
  | .send u data eos => .next (hostSend u data eos s)
  | .take u => .next (hostTake u s)
  | .forward => .next (hostForward s)
  | .reset => .next (resetUnits s)

end Sys2Proof.Machine
end

