-- ==== Sys2Proof/Machine/Step.lean ====
section
/-! DEFINITION. One step of the machine: the next move, taken by a unit or by the host (40_command_model R157); and where a
command word is put so that the very next step runs it. -/

namespace Sys2Proof.Machine

/-- Unit `u` has the move: it does nothing while BUSY = 0, raises ILLEGAL_CMD on an illegal word, or takes one micro-step of
its command (40_command_model R150, R156). -/
def unitStep (u : UnitId) (s : State) : Host.Outcome State Fault Refusal :=
  match fetch u s with
  | .idle => .next s
  | .illegal => .next (raiseIllegal u s)
  | .run i => exec i s

/-- One step: the next move is taken off and carried out. -/
def step (s : State) : Host.Outcome State Fault Refusal :=
  match takeTurn s with
  | (.unit u, s') => unitStep u s'
  | (.host a, s') => hostMove a s'

/-- The state with a command word of the opcode table accepted by the unit it is read for, that unit having the very next
move (log entry 2). -/
def State.withFetchWord (s : State) (nbits w : Nat) : State := placeCommand (tableUnit nbits w) (tableWord nbits w) s

end Sys2Proof.Machine
end

