-- ==== Sys2Proof/Machine/Reference.lean ====
section
/-! DEFINITION. The reference functions the spec's properties speak of (40_command_model R167): the count table of an input,
the payload bits and bytes, the encoded file; what a file decodes to; TreeBuild written with "the n in A with the least (W, n)" word for word
(42_tree_codes R201), and the two-queue method (R213). No step of the machine calls them. -/

namespace Sys2Proof.Machine

/-! ### The encoded file (30_encoding R135 to R139) -/

/-- `COUNTx`: how often each byte value occurs in `x` (41_frequency R180). DESIGN CHOICE (log entry 27): for an `x` in which a
byte value occurs 2^32 times or more, which no 32-bit entry holds and on which the machine raises COUNT_OVERFLOW (90_conflicts
C4), this function takes the number modulo 2^32; every statement about `encodeFile` excludes such an `x`. -/
def countTable (x : List Byte) : Vector (BitVec 32) 256 :=
  Vector.ofFn fun s => BitVec.ofNat 32 (x.count (BitVec.ofNat 8 s.val))

/-- The LEN bits of a code "from its most significant bit down" (30_encoding R138). -/
def codeBits (k : Code) : List Bool := (List.range k.len.toNat).map fun j => k.pat.getLsbD (k.len.toNat - 1 - j)

/-- The bit string B of `x`: its codes, concatenated (30_encoding R138). -/
def payloadBits (code : Vector Code 256) (x : List Byte) : List Bool := x.flatMap fun b => codeBits code[b.toNat]

/-- A byte from the first 8 bits of a list, most significant first, zero-padded (30_encoding R138). -/
def byteOfBits (bits : List Bool) : Byte :=
  BitVec.ofNat 8 ((List.range 8).foldl (fun acc i => 2 * acc + (bits.getD i false).toNat) 0)

/-- Payload byte j holds bits 8j .. 8j+7; there are ⌈L / 8⌉ of them (30_encoding R138, R139). -/
def packBits (bits : List Bool) : List Byte :=
  (List.range ((bits.length + 7) / 8)).map fun j => byteOfBits (bits.drop (8 * j))

/-- The code table of a count table: `CodeGen(TreeBuild(C))` (40_command_model R167). -/
def codeTable (count : Vector (BitVec 32) 256) : Vector Code 256 := codeGen (treeBuild count)

/-- `EncodeFile(x)` (40_command_model R167), for an `x` in which no byte value occurs 2^32 times or more (log entry 27). -/
def encodeFile (x : List Byte) : List Byte :=
  let count := countTable x
  let code := codeTable count
  headerBytes count ++ [(tbcOf (totalBitsOf count code)).setWidth 8] ++ packBits (payloadBits code x)

/-! ### The walk of a code (44_bitreader R250) -/

/-- From node `n`, the right child on a 1-bit and the left child on a 0-bit (44_bitreader R250). -/
def walkBits (node : Vector Node 511) : NodeIdx → List Bool → NodeIdx
  | n, [] => n
  | n, b :: bs => walkBits node (if b then (nodeOf node n).r else (nodeOf node n).l) bs

/-! ### What a file decodes to (40_command_model R162, R167) -/

/-- How a decoder run ends: with the decoded byte sequence, or with an error cause (R162). -/
inductive DecodeResult where
  | bytes (x : List Byte)
  | failed (k : Cause)
deriving DecidableEq, Repr

/-- The 8 bits of a byte, most significant first (20_memory R104). -/
def bitsOfByte (b : Byte) : List Bool := (List.range 8).map fun j => b.getLsbD (7 - j)

/-- `COUNT[s] = {byte[4s], byte[4s+1], byte[4s+2], byte[4s+3]}` of a file of 1024 bytes or more (30_encoding R136). -/
def headerCounts (f : List Byte) : Vector (BitVec 32) 256 :=
  Vector.ofFn fun s => f.getD (4 * s.val) 0 ++ f.getD (4 * s.val + 1) 0 ++ f.getD (4 * s.val + 2) 0 ++ f.getD (4 * s.val + 3) 0

/-- The payload's bits without the padding: of the last byte only the `tbc` most significant ones (44_bitreader R251). -/
def meaningfulBits (tbc : Nat) (payload : List Byte) : List Bool :=
  (payload.flatMap bitsOfByte).take (8 * payload.length - (8 - tbc))

/-- The walk over a bit string from node `n`: a leaf gives its symbol and the walk is back at the root; bits that end
elsewhere than at the root cut a code short, `none` (44_bitreader R250 to R253). -/
def decodeBits (node : Vector Node 511) : NodeIdx → List Bool → Option (List Byte)
  | n, [] => if n = rootNode then some [] else none
  | n, b :: bs =>
    let c := if b then (nodeOf node n).r else (nodeOf node n).l
    if c.toNat ≤ 255 then (decodeBits node rootNode bs).map (c.setWidth 8 :: ·) else decodeBits node c bs

/-- `DecodeFile(f)`: the output of the decoder run on `f` followed by EOS, or the error cause it ends with (40_command_model
R167), written as a function of the file: the 1024 header bytes (41_frequency R184), the TBC byte (46_decoder_control R293) and
the walk over the payload (44_bitreader R253). That D.RUN on `f` and EOS ends so is stated (RunDecodesEncodedFile); log entry
28. -/
def decodeFile (f : List Byte) : DecodeResult :=
  if f.length < 1024 then .failed .truncatedHeader
  else
    match f.drop 1024 with
    | [] => .failed .missingTbc
    | v :: payload =>
      let count := headerCounts f
      let tbc := tbcOf (totalBitsOf count (codeTable count))
      if v.toNat ≠ tbc.toNat then .failed .tbcMismatch
      else
        match decodeBits (treeBuild count) rootNode (meaningfulBits tbc.toNat payload) with
        | some x => .bytes x
        | none => .failed .incompleteCode

/-! ### TreeBuild, word for word (42_tree_codes R201) -/

/-- The member of the nonempty set `a :: rest` with the least (weight, index). -/
def leastActive (a : Active) : List Active → Active
  | [] => a
  | b :: rest => if b.w < a.w ∨ (b.w = a.w ∧ b.n < a.n) then leastActive b rest else leastActive a rest

/-- `k` merges of an unordered active set: x is the least, y the least of what is left, m joins the set. -/
def mergeByLeast : (k m : Nat) → List Active → List Node
  | 0, _, _ => []
  | _ + 1, _, [] => []
  | k + 1, m, a :: rest =>
    let x := leastActive a rest
    match (a :: rest).erase x with
    | [] => []
    | b :: rest' =>
      let y := leastActive b rest'
      ⟨BitVec.ofNat 40 (x.w + y.w), BitVec.ofNat 9 x.n, BitVec.ofNat 9 y.n⟩ ::
        mergeByLeast k (m + 1) (⟨x.w + y.w, m⟩ :: (b :: rest').erase y)

/-! ### The two-queue method (42_tree_codes R213) -/

/-- The smaller of the two heads, "taken leaf first" on equal weights, with the queues that are left. -/
def takeHead : (leaves inner : List Active) → Option (Active × List Active × List Active)
  | [], [] => none
  | a :: leaves, [] => some (a, leaves, [])
  | [], b :: inner => some (b, [], inner)
  | a :: leaves, b :: inner => if a.w ≤ b.w then some (a, leaves, b :: inner) else some (b, a :: leaves, inner)

/-- `k` merges with the leaves sorted and the internal nodes in a FIFO. -/
def mergeTwoQueues : (k m : Nat) → (leaves inner : List Active) → List Node
  | 0, _, _, _ => []
  | k + 1, m, leaves, inner =>
    match takeHead leaves inner with
    | none => []
    | some (x, leaves', inner') =>
      match takeHead leaves' inner' with
      | none => []
      | some (y, leaves'', inner'') =>
        ⟨BitVec.ofNat 40 (x.w + y.w), BitVec.ofNat 9 x.n, BitVec.ofNat 9 y.n⟩ ::
          mergeTwoQueues k (m + 1) leaves'' (inner'' ++ [⟨x.w + y.w, m⟩])

end Sys2Proof.Machine
end

