-- ==== Sys2Proof/Safety.lean ====
section
/-! DEFINITION. The terms the statements use: several micro-steps of one command, the phase table of 40_command_model R154,
the causes each command can raise (60_exceptions R311), and the invariants of the machine. -/

namespace Sys2Proof

open Machine

/-! ### Runs of one command -/

/-- `n` micro-steps of command `i`, stopping at a fault or a refusal (40_command_model R156). -/
def execN : Nat → Instr → State → Host.Outcome State Fault Refusal
  | 0, _, s => .next s
  | n + 1, i, s =>
    match exec i s with
    | .next t => execN n i t
    | .fault r => .fault r
    | .refused r => .refused r

/-- One part of a run after another. -/
def andThen (r : Host.Outcome State Fault Refusal) (f : State → Host.Outcome State Fault Refusal) :
    Host.Outcome State Fault Refusal :=
  match r with
  | .next t => f t
  | .fault e => .fault e
  | .refused e => .refused e

/-! ### Tables of the spec, written out once more -/

/-- The commands that "may run in PHASE any" (R154). -/
def runsInAnyPhase : Instr → Bool
  | .eNop | .eClear | .eDrain | .dNop | .dClear | .dDrain => true
  | .eAccum _ | .eAccumStream | .eBuildTree | .eGenCodes | .eEmitHeader | .ePrepare | .ePack _ | .ePackStream | .eFinish
  | .dLoadHeader | .dBuildTree | .dGenCodes | .dCheckTbc | .dWalk | .dDecodeStream | .dRun => false

/-- The phases a command with a phase requirement may run in (R154, second column). -/
def mayRunIn : Instr → List Phase
  | .eAccum _ | .eAccumStream | .eBuildTree | .ePrepare => [.counting]
  | .eGenCodes | .dGenCodes => [.treeBuilt]
  | .eEmitHeader | .dCheckTbc => [.codesReady]
  | .ePack _ | .ePackStream | .eFinish => [.headerSent, .packing]
  | .dLoadHeader | .dRun => [.ready]
  | .dBuildTree => [.headerLoaded]
  | .dWalk | .dDecodeStream => [.decoding]
  | .eNop | .eClear | .eDrain | .dNop | .dClear | .dDrain => []

/-- The phases a command that starts in phase `p` may leave PHASE in at completion (R154, third column). -/
def leavesPhase (p : Phase) : Instr → List Phase
  | .eNop | .eDrain | .dNop | .dDrain => [p]
  | .eClear | .eAccum _ | .eAccumStream => [.counting]
  | .eBuildTree | .dBuildTree => [.treeBuilt]
  | .eGenCodes | .dGenCodes => [.codesReady]
  | .eEmitHeader | .ePrepare => [.headerSent]
  | .ePack _ | .ePackStream => [.packing]
  | .eFinish => [.finished]
  | .dClear => [.ready]
  | .dLoadHeader => [.headerLoaded]
  | .dCheckTbc => [.decoding]
  | .dWalk => [.decoding, .done]
  | .dDecodeStream | .dRun => [.done]

/-- The causes a command's micro-steps can raise, apart from ILLEGAL_CMD and CMD_OVERRUN, which are raised for it
(60_exceptions R311, column "raised by"). -/
def raisedBy : Instr → List Cause
  | .eNop | .eClear | .eDrain | .dNop | .dClear | .dDrain => []
  | .eAccum _ | .eAccumStream => [.sequence, .countOverflow]
  | .eBuildTree | .eGenCodes | .eEmitHeader | .ePrepare | .ePack _ | .ePackStream => [.sequence]
  | .eFinish => [.sequence, .passMismatch]
  | .dLoadHeader => [.sequence, .truncatedHeader]
  | .dBuildTree | .dGenCodes => [.sequence]
  | .dCheckTbc => [.sequence, .missingTbc, .tbcMismatch]
  | .dWalk | .dDecodeStream => [.sequence, .incompleteCode]
  | .dRun => [.sequence, .truncatedHeader, .missingTbc, .tbcMismatch, .incompleteCode]

/-- The state with the error entry of `k` done in the unit: PHASE, BUSY and, if ERR was 0, ERR_CAUSE (60_exceptions R320). -/
def withError (u : UnitId) (k : Cause) (opc : Byte) (s : State) : State :=
  s.setCore u { s.core u with
    errCause := if (s.core u).phase = .error then (s.core u).errCause else ⟨k.code, opc, k.kind⟩
    phase := .error
    busy := false }

/-- A 32-bit host read of unit `u` at offset `off` answers the value `v`, and does nothing else (20_memory R93, R94). -/
def Reads (u : UnitId) (off : BitVec 12) (s : State) (v : Word) : Prop :=
  hostMove (.read u off 32) s = .next { s with replies := s.replies ++ [.value v] }

/-- A 32-bit host read of unit `u` at offset `off` answers the next free value, whatever it is, and does nothing else (20_memory
R94, log entry 7). -/
def ReadsDraw (u : UnitId) (off : BitVec 12) (s : State) : Prop :=
  hostMove (.read u off 32) s =
    .next { s with replies := s.replies ++ [.value (Config.draw s.draws)], draws := s.draws + 1 }

/-- `w` is the one legal word of opcode `opc` in unit `u`, and stands for `i`: format F0 (30_encoding R121, R124 to R126). -/
def OnlyWord (u : UnitId) (opc : Byte) (w : Word) (i : Instr) : Prop :=
  decode u w = .ok i ∧ ∀ w' : Word, w'.extractLsb' 0 8 = opc → w' ≠ w → ∃ why, decode u w' = .illegal why

/-- The legal words of opcode `opc` in unit `u` are `0x0000ii` and the opcode, `ii` being the symbol: format F1 (30_encoding
R121, R122, R126). -/
def OnlySymbolWords (u : UnitId) (opc : Byte) (make : Symbol → Instr) : Prop :=
  (∀ sym : Symbol, decode u ((0 : BitVec 16) ++ sym ++ opc) = .ok (make sym)) ∧
  ∀ w' : Word, w'.extractLsb' 0 8 = opc → w'.extractLsb' 16 16 ≠ 0 → ∃ why, decode u w' = .illegal why

/-- The outcome is the next state `t`, but for unit `u`'s hidden sequencing state CUR, STAGE and HDR_IDX, which is
"meaningless while BUSY = 0" (10_state R63), and the model's own `begun` (log entries 4 and 5): those are left open. -/
def EndsIn (u : UnitId) (o : Host.Outcome State Fault Refusal) (t : State) : Prop :=
  ∃ (cur : Word) (stage : Nat) (begun : Bool) (hdrIdx : Nat),
    o = .next
      (match u with
       | .enc => { t with enc := { t.enc with core := { t.enc.core with cur := cur, stage := stage, begun := begun } } }
       | .dec => { t with dec := { t.dec with
           hdrIdx := hdrIdx
           core := { t.dec.core with cur := cur, stage := stage, begun := begun } } })

/-! ### Bits in the order they are sent (20_memory R104, 43_bitpacker R230) -/

/-- The packer's pending bits, oldest first: the PK_PEND low bits of PK_ACC, most significant first. -/
def pendingBits (e : Enc) : List Bool :=
  (List.range e.pkPend.toNat).map fun j => e.pkAcc.getLsbD (e.pkPend.toNat - 1 - j)

/-! ### The walk, written out once more (44_bitreader R251) -/

/-- The child the walk follows: right on a 1-bit, left on a 0-bit, the bit being `BR_BUF[BR_CNT - 1]`. -/
def childTaken (d : Dec) : NodeIdx :=
  if d.brBuf.getLsbD (d.brCnt.toNat - 1) then (nodeOf d.core.node d.walkNode).r else (nodeOf d.core.node d.walkNode).l

/-- DEC after one payload bit: at a leaf the symbol is emitted and the walk is back at the root. -/
def afterBit (d : Dec) : Dec :=
  let leaf := decide ((childTaken d).toNat ≤ 255)
  { d with
    brCnt := d.brCnt - 1
    brBuf := d.brBuf &&& BitVec.ofNat 8 (2 ^ (d.brCnt - 1).toNat - 1)
    consumedBits := d.consumedBits + 1
    walkNode := if leaf then 510 else childTaken d
    core :=
      if leaf then
        { d.core with output := d.core.output ++ [.byte ((childTaken d).setWidth 8)], outBytes := d.core.outBytes + 1 }
      else d.core }

/-- DEC with a payload byte `b` loaded, `last` when the token after it is EOS. -/
def afterLoad (d : Dec) (b : Byte) (rest : List Token) (last : Bool) : Dec :=
  { d with
    core := { d.core with input := rest, inBytes := d.core.inBytes + 1 }
    brBuf := if last then b >>> (8 - d.core.calcTbc.toNat) else b
    brCnt := if last then d.core.calcTbc else 8
    brLast := last }

/-- `d'` is DEC with a payload bit to take: `d` itself when its buffer is not empty, else `d` with the next payload byte
loaded, which needs the token after it. -/
def HasBit (d d' : Dec) : Prop :=
  (d.brCnt ≠ 0 ∧ d' = d) ∨
  (d.brCnt = 0 ∧ ∃ (b : Byte) (t : Token) (rest : List Token),
    d.core.input = .byte b :: t :: rest ∧ d' = afterLoad d b (t :: rest) (decide (t = .eos)))

/-! ### Which commands write what (10_state R40, R43 to R49, R58 to R61) -/

/-- The commands that write COUNT (R59). -/
def writesCount : Instr → Bool
  | .eClear | .eAccum _ | .eAccumStream | .dClear | .dLoadHeader | .dRun => true
  | .eNop | .eBuildTree | .eGenCodes | .eEmitHeader | .ePack _ | .ePackStream | .eFinish | .ePrepare | .eDrain | .dNop
  | .dBuildTree | .dGenCodes | .dCheckTbc | .dWalk | .dDecodeStream | .dDrain => false

/-- The commands that write NODE: "Written only by BUILD_TREE" (R60), alone or inside a macro. -/
def writesNode : Instr → Bool
  | .eBuildTree | .ePrepare | .dBuildTree | .dRun => true
  | .eNop | .eClear | .eAccum _ | .eAccumStream | .eGenCodes | .eEmitHeader | .ePack _ | .ePackStream | .eFinish | .eDrain
  | .dNop | .dClear | .dLoadHeader | .dGenCodes | .dCheckTbc | .dWalk | .dDecodeStream | .dDrain => false

/-- The commands that write CODE: "Written only by GEN_CODES" (R61), alone or inside a macro. -/
def writesCode : Instr → Bool
  | .eGenCodes | .ePrepare | .dGenCodes | .dRun => true
  | .eNop | .eClear | .eAccum _ | .eAccumStream | .eBuildTree | .eEmitHeader | .ePack _ | .ePackStream | .eFinish | .eDrain
  | .dNop | .dClear | .dLoadHeader | .dBuildTree | .dCheckTbc | .dWalk | .dDecodeStream | .dDrain => false

/-- The commands that write AUX_TBC and AUX_VALID (R43). -/
def writesAux : Instr → Bool
  | .eClear | .eFinish | .dClear | .dCheckTbc | .dRun => true
  | .eNop | .eAccum _ | .eAccumStream | .eBuildTree | .eGenCodes | .eEmitHeader | .ePack _ | .ePackStream | .ePrepare
  | .eDrain | .dNop | .dLoadHeader | .dBuildTree | .dGenCodes | .dWalk | .dDecodeStream | .dDrain => false

/-- The commands that move the packer or the reader: PK_ACC, PK_PEND; BR_BUF, BR_CNT, BR_LAST, WALK_NODE (R47, R48). -/
def writesBits : Instr → Bool
  | .eClear | .ePack _ | .ePackStream | .eFinish | .dClear | .dCheckTbc | .dWalk | .dDecodeStream | .dRun => true
  | .eNop | .eAccum _ | .eAccumStream | .eBuildTree | .eGenCodes | .eEmitHeader | .ePrepare | .eDrain | .dNop
  | .dLoadHeader | .dBuildTree | .dGenCodes | .dDrain => false

/-- The commands that write PACKED_BITS or CONSUMED_BITS (R49). -/
def writesBitCounter : Instr → Bool
  | .eClear | .ePack _ | .ePackStream | .dClear | .dWalk | .dDecodeStream | .dRun => true
  | .eNop | .eAccum _ | .eAccumStream | .eBuildTree | .eGenCodes | .eEmitHeader | .eFinish | .ePrepare | .eDrain | .dNop
  | .dLoadHeader | .dBuildTree | .dGenCodes | .dCheckTbc | .dDrain => false

/-- The commands that consume input tokens (20_memory R102). -/
def readsInput : Instr → Bool
  | .eAccumStream | .ePackStream | .eDrain | .dLoadHeader | .dCheckTbc | .dWalk | .dDecodeStream | .dDrain | .dRun => true
  | .eNop | .eClear | .eAccum _ | .eBuildTree | .eGenCodes | .eEmitHeader | .ePack _ | .eFinish | .ePrepare | .dNop
  | .dClear | .dBuildTree | .dGenCodes => false

/-- The commands that emit output tokens (00_scope R16). -/
def emitsOutput : Instr → Bool
  | .eEmitHeader | .ePack _ | .ePackStream | .eFinish | .ePrepare | .dWalk | .dDecodeStream | .dRun => true
  | .eNop | .eClear | .eAccum _ | .eAccumStream | .eBuildTree | .eGenCodes | .eDrain | .dNop | .dClear | .dLoadHeader
  | .dBuildTree | .dGenCodes | .dCheckTbc | .dDrain => false

/-- CLEAR of either unit. -/
def isClear : Instr → Bool
  | .eClear | .dClear => true
  | .eNop | .eAccum _ | .eAccumStream | .eBuildTree | .eGenCodes | .eEmitHeader | .ePack _ | .ePackStream | .eFinish
  | .ePrepare | .eDrain | .dNop | .dLoadHeader | .dBuildTree | .dGenCodes | .dCheckTbc | .dWalk | .dDecodeStream | .dDrain
  | .dRun => false

/-- What command `i` leaves unchanged in the common part of its unit: a memory, register or stream changes only under a
command that writes it, and IRQ_EN, CT_SEL and NODE_SEL under none (R42, R50, R53, R58 to R61). -/
def CommonFrame (i : Instr) (c c' : Common) : Prop :=
  (c'.doneIe = c.doneIe ∧ c'.errIe = c.errIe ∧ c'.ctSel = c.ctSel ∧ c'.nodeSel = c.nodeSel ∧ c'.cur = c.cur) ∧
  (writesCount i = false → c'.count = c.count) ∧
  (writesNode i = false → c'.node = c.node) ∧
  (writesCode i = false → c'.code = c.code) ∧
  (writesCode i = false → isClear i = false → c'.totalBits = c.totalBits ∧ c'.calcTbc = c.calcTbc) ∧
  (writesAux i = false → c'.auxTbc = c.auxTbc ∧ c'.auxValid = c.auxValid) ∧
  (readsInput i = false → c'.input = c.input ∧ (isClear i = false → c'.inBytes = c.inBytes)) ∧
  (emitsOutput i = false → c'.output = c.output ∧ (isClear i = false → c'.outBytes = c.outBytes))

/-! ### Invariants -/

/-- What STATUS and ERR_CAUSE of unit `u` keep: a phase the unit has (10_state R36); DONE is 0 while BUSY is 1 (R38); an error
code is recorded exactly while ERR is 1, and only a code and kind of the table (R39, R41, 60_exceptions R311); and outside IDLE
and ERROR a CLEAR has completed since reset (70_reset R351), which the model's own `countInit` records (log entry 6). -/
def StatusOk (u : UnitId) (c : Common) : Prop :=
  c.phase.legal u = true ∧
  (c.busy = true → c.done = false) ∧
  (c.err = true ↔ c.errCause.code ≠ 0) ∧
  (c.errCause = ⟨0, 0, 0⟩ ∨ ∃ k : Cause, c.errCause.code = k.code ∧ c.errCause.kind = k.kind) ∧
  (c.phase ≠ .idle → c.phase ≠ .error → c.countInit = true)

/-- STATUS and ERR_CAUSE of both units. -/
def StatusInv (s : State) : Prop := StatusOk .enc s.enc.core ∧ StatusOk .dec s.dec.core

/-- The tables a unit holds are those of its COUNT in the phases in which they are valid (10_state R62, 42_tree_codes R202,
R205 to R207). -/
def TablesAgree (u : UnitId) (c : Common) : Prop :=
  (treeValid u c.phase = true → c.node = treeBuild c.count) ∧
  (codesValid u c.phase = true →
    c.code = codeGen c.node ∧ c.totalBits = totalBitsOf c.count c.code ∧ c.calcTbc = tbcOf c.totalBits)

/-- The packer: `PK_PEND` in 0..8 and `PK_ACC < 2^PK_PEND`; and, in the phases in which the code table is valid, every code's
`PAT < 2^LEN` (10_state R47, R61, R62, 43_bitpacker R230). -/
def PackerOk (e : Enc) : Prop :=
  e.pkPend.toNat ≤ 8 ∧ e.pkAcc.toNat < 2 ^ e.pkPend.toNat ∧
  (codesValid .enc e.core.phase = true →
    ∀ x : Fin 256, e.core.code[x].pat.toNat < 2 ^ e.core.code[x].len.toNat)

/-- The reader: `BR_CNT` in 0..8, `BR_BUF < 2^BR_CNT`, and WALK_NODE an internal node (10_state R48, 44_bitreader R251). -/
def ReaderOk (d : Dec) : Prop :=
  d.brCnt.toNat ≤ 8 ∧ d.brBuf.toNat < 2 ^ d.brCnt.toNat ∧ 256 ≤ d.walkNode.toNat ∧ d.walkNode.toNat ≤ 510

/-- `HDR_IDX` is in 0..1024, and below 1024 while header bytes are still to be loaded (10_state R63, 41_frequency R184). -/
def HeaderIndexOk (d : Dec) : Prop :=
  d.hdrIdx ≤ 1024 ∧
  (d.core.busy = true → d.core.begun = true → d.core.phase = .ready →
    (decode .dec d.core.cur = .ok .dLoadHeader ∨ decode .dec d.core.cur = .ok .dRun) → d.hdrIdx < 1024)

/-- The datapath of both units. -/
def DataInv (s : State) : Prop :=
  PackerOk s.enc ∧ TablesAgree .enc s.enc.core ∧ ReaderOk s.dec ∧ TablesAgree .dec s.dec.core ∧ HeaderIndexOk s.dec

end Sys2Proof
end

