-- ==== Sys2Proof/Certificates/Slice0/Obligations.lean ====
section
/-! DEFINITION. The statements about the two units, from the numbered rules of spec/. In them `s.setCore u c` is the state
`s` with the common part of unit `u` replaced by `c`, and `withError u k opc s` is the state `s` with the error entry of
60_exceptions R320 done in unit `u`. A result is stated for the whole next state, so what it does not name is unchanged;
`EndsIn` leaves open only the hidden sequencing state of a unit whose command is over (10_state R63); a statement that gives
the exact next state there instead says so and names log entry 4. -/

open Sys2Proof Sys2Proof.Machine

/-! ## Encoding -/

/-- 30_encoding R120 to R125: no field of a command's word is lost between the encoder and the unit's decoder. -/
def Obligations.DecodeOfEncode : Prop :=
  ∀ (u : UnitId) (i : Instr), WellFormed u i = true → decode u (encode i) = .ok i

/-- 30_encoding R127: "Every word has one meaning" (92 D24): the word a command was decoded from is the command's own. -/
def Obligations.EncodeOfDecode : Prop :=
  ∀ (u : UnitId) (w : Word) (i : Instr), decode u w = .ok i → encode i = w ∧ WellFormed u i = true

/-- 30_encoding R126 with the maps of R124 and R125: a word is illegal exactly when its OPC is unassigned, its RSV is not 0,
or its format is F0 and its IMM is not 0. -/
def Obligations.IllegalWordsExactly : Prop :=
  ∀ (u : UnitId) (w : Word),
    (∃ why, decode u w = .illegal why) ↔
      (w.extractLsb' 0 8 ∉
          (match u with
           | .enc => ([0x00, 0x01, 0x02, 0x03, 0x04, 0x05, 0x06, 0x07, 0x08, 0x09, 0x0A, 0x0E] : List Byte)
           | .dec => ([0x00, 0x01, 0x02, 0x04, 0x05, 0x06, 0x07, 0x08, 0x0E, 0x0F] : List Byte)) ∨
        w.extractLsb' 16 16 ≠ 0 ∨
        ((u = .dec ∨ w.extractLsb' 0 8 ∉ ([0x02, 0x07] : List Byte)) ∧ w.extractLsb' 8 8 ≠ 0))

/-- Words of 30_encoding R124 and R125, one family after the other, read as the commands they stand for. -/
def Obligations.SampleWordsDecode : Prop :=
  decode .enc 0x00006102 = .ok (.eAccum 0x61) ∧ decode .enc 0x00000003 = .ok .eAccumStream ∧
  decode .enc 0x00000004 = .ok .eBuildTree ∧ decode .enc 0x0000FF07 = .ok (.ePack 0xFF) ∧
  decode .enc 0x0000000A = .ok .ePrepare ∧ decode .enc 0x0000000E = .ok .eDrain ∧
  decode .dec 0x00000002 = .ok .dLoadHeader ∧ decode .dec 0x00000006 = .ok .dCheckTbc ∧
  decode .dec 0x00000007 = .ok .dWalk ∧ decode .dec 0x0000000F = .ok .dRun ∧
  decode .enc 0x0000000F = .illegal .unassignedOpcode ∧ decode .dec 0x00006102 = .illegal .operandNotZero ∧
  decode .enc 0x00010002 = .illegal .reservedNotZero

/-! ## The command cycle -/

/-- When a busy unit has the move and its accepted word decodes to a command, the step is `exec` of it; around `exec` the
step only takes the move off the agenda (40_command_model R150, R156; the agenda is the model's, log entry 1). A unit with
BUSY = 0 "takes no steps and changes no state" (60_exceptions R340). When a move of the host is at the agenda's head, the step
is that move (40_command_model R157, 70_reset R370). -/
def Obligations.StepRunsDecodedCommand : Prop :=
  (∀ (s : State) (u : UnitId),
    (∀ i : Instr, (s.core u).busy = true → decode u (s.core u).cur = .ok i →
      (∀ rest, s.agenda = .unit u :: rest → step s = exec i { s with agenda := rest }) ∧
      (s.agenda = [] → s.turn = u → step s = exec i { s with turn := otherUnit u })) ∧
    ((s.core u).busy = false →
      (∀ rest, s.agenda = .unit u :: rest → step s = .next { s with agenda := rest }) ∧
      (s.agenda = [] → s.turn = u → step s = .next { s with turn := otherUnit u }))) ∧
  ∀ (s : State) (a : HostMove) (rest : List Move), s.agenda = .host a :: rest →
    step s = hostMove a { s with agenda := rest }

/-- 40_command_model R150 with 30_encoding R126: the first micro-step of an accepted illegal word is the error entry of
ILLEGAL_CMD, whatever the phase, with the unit's turn at the agenda's head (the agenda: log entry 1) or with an empty agenda.
That CUR, STAGE and HDR_IDX keep their values, meaningless from then on (R320), is the model's choice (log entry 4). -/
def Obligations.IllegalWordRaises : Prop :=
  ∀ (s : State) (u : UnitId) (why : DecodeError), (s.core u).busy = true → decode u (s.core u).cur = .illegal why →
    (∀ rest, s.agenda = .unit u :: rest →
      step s = .next (withError u .illegalCmd ((s.core u).cur.extractLsb' 0 8) { s with agenda := rest })) ∧
    (s.agenda = [] → s.turn = u →
      step s = .next (withError u .illegalCmd ((s.core u).cur.extractLsb' 0 8) { s with turn := otherUnit u }))

/-- 40_command_model R150 to R153: a host write to CMD (offset 0x008) is an overrun while BUSY; else it is ignored in ERROR
unless it is exactly the word of NOP, CLEAR or DRAIN; else it is accepted. -/
def Obligations.CmdWriteOverrunIgnoredOrAccepted : Prop :=
  ∀ (s : State) (u : UnitId) (w : Word),
    ((s.core u).busy = true →
      EndsIn u (hostMove (.write u 0x008 32 w) s) ((withError u .cmdOverrun (w.extractLsb' 0 8) s).reply .written)) ∧
    ((s.core u).busy = false → (s.core u).phase = .error → w ≠ 0x00000000 → w ≠ 0x00000001 → w ≠ 0x0000000E →
      hostMove (.write u 0x008 32 w) s = .next (s.reply .written)) ∧
    ((s.core u).busy = false → (s.core u).phase ≠ .error ∨ w = 0x00000000 ∨ w = 0x00000001 ∨ w = 0x0000000E →
      ∃ b, hostMove (.write u 0x008 32 w) s =
        .next ((s.setCore u { s.core u with cur := w, busy := true, done := false, begun := b }).reply .written))

/-- 40_command_model R154, R155: a command outside its phases raises SEQUENCE in its first micro-step (`begun` is false, log
entry 5), and nothing else changes. That CUR, STAGE and HDR_IDX too keep their values, meaningless from then on (60_exceptions
R320), is the model's choice (log entry 4). -/
def Obligations.SequenceOutsideItsPhases : Prop :=
  ∀ (i : Instr) (s : State), runsInAnyPhase i = false → (s.core i.unit).phase ∉ mayRunIn i →
    (s.core i.unit).begun = false →
    exec i s = .next (withError i.unit .sequence ((s.core i.unit).cur.extractLsb' 0 8) s)

/-- 40_command_model R154 (third column) and R158: a micro-step that ends a command leaves PHASE as the table says with
DONE = 1, or is an error entry, which leaves DONE as it was (60_exceptions R320). -/
def Obligations.CompletionLeavesTablePhase : Prop :=
  ∀ (i : Instr) (s t : State), (s.core i.unit).busy = true → exec i s = .next t → (t.core i.unit).busy = false →
    ((t.core i.unit).phase ∈ leavesPhase (s.core i.unit).phase i ∧ (t.core i.unit).done = true) ∨
    ((t.core i.unit).phase = .error ∧ (t.core i.unit).done = (s.core i.unit).done)

/-- 60_exceptions R320 with the codes and kinds of R311: what error entry writes, and that everything else stays. That CUR and
STAGE are among what stays, where R320 calls them meaningless from then on, is the model's choice (log entry 4). -/
def Obligations.ErrorEntryRecordsTheFirstCause : Prop :=
  (∀ (c : Common) (k : Cause) (opc : Byte),
    c.errorEntry k opc =
      { c with errCause := if c.phase = .error then c.errCause else ⟨k.code, opc, k.kind⟩, phase := .error, busy := false }) ∧
  [Cause.illegalCmd, .sequence, .cmdOverrun, .countOverflow, .passMismatch, .truncatedHeader, .missingTbc, .tbcMismatch,
    .incompleteCode].map (fun k => (k.code, k.kind)) =
    [(0x01, 3), (0x02, 3), (0x03, 3), (0x10, 4), (0x11, 4), (0x20, 1), (0x21, 1), (0x22, 2), (0x23, 2)]

/-- 60_exceptions R310, R311 (column "raised by"), R320: a command that brings its unit into ERROR records one of its own
causes and the opcode in CUR. -/
def Obligations.CommandsRaiseOnlyTheirCauses : Prop :=
  ∀ (i : Instr) (s t : State), exec i s = .next t → (s.core i.unit).phase ≠ .error → (t.core i.unit).phase = .error →
    ∃ k ∈ raisedBy i, (t.core i.unit).errCause = ⟨k.code, (s.core i.unit).cur.extractLsb' 0 8, k.kind⟩

/-- 10_state R41, 60_exceptions R323, R325: while ERR stays 1, no step changes ERR_CAUSE. -/
def Obligations.FirstErrorIsKept : Prop :=
  ∀ (s t : State) (u : UnitId), step s = .next t → (s.core u).phase = .error → (t.core u).phase = .error →
    (t.core u).errCause = (s.core u).errCause

/-- 10_state R39: ERR is 1 exactly when the PHASE field is 15; error entry sets it; and only a running CLEAR of the unit, or
reset, clears it. -/
def Obligations.OnlyClearOrResetLeavesError : Prop :=
  (∀ (u : UnitId) (c : Common), c.err = true ↔ c.phase.value u = 15) ∧
  (∀ (c : Common) (k : Cause) (opc : Byte), (c.errorEntry k opc).err = true) ∧
  ∀ (s t : State) (u : UnitId), step s = .next t → (s.core u).err = true → (t.core u).err = false →
    (∃ rest, s.agenda = .host .reset :: rest) ∨
    ((s.core u).busy = true ∧ decode u (s.core u).cur = .ok (match u with | .enc => .eClear | .dec => .dClear))

/-! ## The commands -/

/-- 45_encoder_control R270, 46_decoder_control R290: NOP completes with PHASE and everything else as it is. -/
def Obligations.NopCompletes : Prop :=
  OnlyWord .enc 0x00 0x00000000 .eNop ∧ OnlyWord .dec 0x00 0x00000000 .dNop ∧
  ∀ s : State,
    EndsIn .enc (exec .eNop s) (s.setCore .enc { s.enc.core with busy := false, done := true }) ∧
    EndsIn .dec (exec .dNop s) (s.setCore .dec { s.dec.core with busy := false, done := true })

/-- 45_encoder_control R271, 46_decoder_control R291: what CLEAR writes; both streams, IRQ_EN, CT_SEL, NODE_SEL, NODE and CODE
stay. `countInit` is the model's own field (log entry 6) and is left open here. -/
def Obligations.ClearStartsARun : Prop :=
  OnlyWord .enc 0x01 0x00000001 .eClear ∧ OnlyWord .dec 0x01 0x00000001 .dClear ∧
  ∀ s : State,
    (∃ b, EndsIn .enc (exec .eClear s) { s with enc :=
      { core := { s.enc.core with
          count := Vector.replicate 256 0, totalBits := 0, inBytes := 0, outBytes := 0, calcTbc := 0, auxTbc := 0,
          auxValid := false, errCause := ⟨0, 0, 0⟩, phase := .counting, busy := false, done := true, countInit := b }
        pkAcc := 0, pkPend := 0, packedBits := 0 } }) ∧
    (∃ b, EndsIn .dec (exec .dClear s) { s with dec :=
      { core := { s.dec.core with
          count := Vector.replicate 256 0, totalBits := 0, inBytes := 0, outBytes := 0, calcTbc := 0, auxTbc := 0,
          auxValid := false, errCause := ⟨0, 0, 0⟩, phase := .ready, busy := false, done := true, countInit := b }
        hdrIdx := s.dec.hdrIdx, brBuf := 0, brCnt := 0, brLast := false, walkNode := 510, consumedBits := 0,
        eop := false } })

/-- 41_frequency R181. -/
def Obligations.AccumCountsOneSymbol : Prop :=
  OnlySymbolWords .enc 0x02 .eAccum ∧
  ∀ (s : State) (sym : Symbol),
    (s.enc.core.phase ≠ .counting →
      EndsIn .enc (exec (.eAccum sym) s) (withError .enc .sequence (s.enc.core.cur.extractLsb' 0 8) s)) ∧
    (s.enc.core.phase = .counting → s.enc.core.count[sym.toNat] = 0xFFFFFFFF →
      EndsIn .enc (exec (.eAccum sym) s) (withError .enc .countOverflow (s.enc.core.cur.extractLsb' 0 8) s)) ∧
    (s.enc.core.phase = .counting → s.enc.core.count[sym.toNat] ≠ 0xFFFFFFFF →
      EndsIn .enc (exec (.eAccum sym) s) (s.setCore .enc { s.enc.core with
        count := s.enc.core.count.set sym.toNat (s.enc.core.count[sym.toNat] + 1), busy := false, done := true }))

/-- 41_frequency R182, one micro-step; `begun` is the model's own field (log entry 5) and is left open where the command
goes on. Two clauses are the model's: SEQUENCE is raised at every micro-step out of phase, not only the first (log entry 8),
and CUR, STAGE and HDR_IDX keep their values where the command ends (log entry 4). -/
def Obligations.AccumStreamCountsOneToken : Prop :=
  OnlyWord .enc 0x03 0x00000003 .eAccumStream ∧
  ∀ s : State,
    (s.enc.core.phase ≠ .counting →
      exec .eAccumStream s = .next (withError .enc .sequence (s.enc.core.cur.extractLsb' 0 8) s)) ∧
    (s.enc.core.phase = .counting → s.enc.core.input = [] → exec .eAccumStream s = .next s) ∧
    (∀ rest, s.enc.core.phase = .counting → s.enc.core.input = .eos :: rest →
      exec .eAccumStream s = .next (s.setCore .enc { s.enc.core with input := rest, busy := false, done := true })) ∧
    (∀ b rest, s.enc.core.phase = .counting → s.enc.core.input = .byte b :: rest →
      s.enc.core.count[b.toNat] ≠ 0xFFFFFFFF →
      ∃ go, exec .eAccumStream s = .next (s.setCore .enc { s.enc.core with
        input := rest, inBytes := s.enc.core.inBytes + 1, begun := go,
        count := s.enc.core.count.set b.toNat (s.enc.core.count[b.toNat] + 1) })) ∧
    (∀ b rest, s.enc.core.phase = .counting → s.enc.core.input = .byte b :: rest →
      s.enc.core.count[b.toNat] = 0xFFFFFFFF →
      exec .eAccumStream s = .next (withError .enc .countOverflow (s.enc.core.cur.extractLsb' 0 8)
        (s.setCore .enc { s.enc.core with input := rest, inBytes := s.enc.core.inBytes + 1 })))

/-- 41_frequency R184, a micro-step after the first (`begun`): one header byte goes to its place in COUNT, byte 0 of a symbol
the most significant; the 1024th completes; an EOS raises TRUNCATED_HEADER. The first micro-step, which sets HDR_IDX to 0 and
takes no token, is the model's reading (log entry 9, told by `begun`, log entry 5); so is SEQUENCE at every micro-step out of
phase, not only the first (log entry 8), and that CUR and STAGE, and on an error HDR_IDX, keep their values where the command
ends (log entry 4). -/
def Obligations.LoadHeaderTakesOneByte : Prop :=
  OnlyWord .dec 0x02 0x00000002 .dLoadHeader ∧
  ∀ s : State,
    (s.dec.core.phase ≠ .ready →
      exec .dLoadHeader s = .next (withError .dec .sequence (s.dec.core.cur.extractLsb' 0 8) s)) ∧
    (s.dec.core.phase = .ready → s.dec.core.begun = false →
      exec .dLoadHeader s = .next { s with dec := { s.dec with hdrIdx := 0, core := { s.dec.core with begun := true } } }) ∧
    (s.dec.core.phase = .ready → s.dec.core.begun = true → s.dec.core.input = [] → exec .dLoadHeader s = .next s) ∧
    (∀ rest, s.dec.core.phase = .ready → s.dec.core.begun = true → s.dec.core.input = .eos :: rest →
      exec .dLoadHeader s = .next (withError .dec .truncatedHeader (s.dec.core.cur.extractLsb' 0 8)
        (s.setCore .dec { s.dec.core with input := rest }))) ∧
    (∀ b rest (h : s.dec.hdrIdx < 1024), s.dec.core.phase = .ready → s.dec.core.begun = true →
      s.dec.core.input = .byte b :: rest →
      exec .dLoadHeader s = .next { s with dec := { s.dec with
        hdrIdx := s.dec.hdrIdx + 1
        core := { s.dec.core with
          input := rest
          inBytes := s.dec.core.inBytes + 1
          phase := if s.dec.hdrIdx = 1023 then .headerLoaded else .ready
          busy := if s.dec.hdrIdx = 1023 then false else s.dec.core.busy
          done := if s.dec.hdrIdx = 1023 then true else s.dec.core.done
          count := s.dec.core.count.set (s.dec.hdrIdx / 4)
            ((s.dec.core.count[s.dec.hdrIdx / 4] &&& ~~~((0xFF : BitVec 32) <<< (24 - 8 * (s.dec.hdrIdx % 4)))) |||
              (b.setWidth 32 <<< (24 - 8 * (s.dec.hdrIdx % 4)))) } } })

/-- 42_tree_codes R208, R209: BUILD_TREE writes `TreeBuild(COUNT)` into NODE and completes in TREE_BUILT. -/
def Obligations.BuildTreeWritesNode : Prop :=
  OnlyWord .enc 0x04 0x00000004 .eBuildTree ∧ OnlyWord .dec 0x04 0x00000004 .dBuildTree ∧
  ∀ s : State,
    (s.enc.core.phase = .counting → EndsIn .enc (exec .eBuildTree s) (s.setCore .enc { s.enc.core with
      node := treeBuild s.enc.core.count, phase := .treeBuilt, busy := false, done := true })) ∧
    (s.enc.core.phase ≠ .counting →
      EndsIn .enc (exec .eBuildTree s) (withError .enc .sequence (s.enc.core.cur.extractLsb' 0 8) s)) ∧
    (s.dec.core.phase = .headerLoaded → EndsIn .dec (exec .dBuildTree s) (s.setCore .dec { s.dec.core with
      node := treeBuild s.dec.core.count, phase := .treeBuilt, busy := false, done := true })) ∧
    (s.dec.core.phase ≠ .headerLoaded →
      EndsIn .dec (exec .dBuildTree s) (withError .dec .sequence (s.dec.core.cur.extractLsb' 0 8) s))

/-- 42_tree_codes R210, R211: GEN_CODES writes CODE, TOTAL_BITS and CALC_TBC and completes in CODES_READY. -/
def Obligations.GenCodesWritesCodeTable : Prop :=
  OnlyWord .enc 0x05 0x00000005 .eGenCodes ∧ OnlyWord .dec 0x05 0x00000005 .dGenCodes ∧
  ∀ s : State,
    (s.enc.core.phase = .treeBuilt → EndsIn .enc (exec .eGenCodes s) (s.setCore .enc { s.enc.core with
      code := codeGen s.enc.core.node
      totalBits := totalBitsOf s.enc.core.count (codeGen s.enc.core.node)
      calcTbc := tbcOf (totalBitsOf s.enc.core.count (codeGen s.enc.core.node))
      phase := .codesReady, busy := false, done := true })) ∧
    (s.enc.core.phase ≠ .treeBuilt →
      EndsIn .enc (exec .eGenCodes s) (withError .enc .sequence (s.enc.core.cur.extractLsb' 0 8) s)) ∧
    (s.dec.core.phase = .treeBuilt → EndsIn .dec (exec .dGenCodes s) (s.setCore .dec { s.dec.core with
      code := codeGen s.dec.core.node
      totalBits := totalBitsOf s.dec.core.count (codeGen s.dec.core.node)
      calcTbc := tbcOf (totalBitsOf s.dec.core.count (codeGen s.dec.core.node))
      phase := .codesReady, busy := false, done := true })) ∧
    (s.dec.core.phase ≠ .treeBuilt →
      EndsIn .dec (exec .dGenCodes s) (withError .dec .sequence (s.dec.core.cur.extractLsb' 0 8) s))

/-- 45_encoder_control R275: 4 bytes per count, most significant first, symbol 0 first, then the TBC byte. -/
def Obligations.EmitHeaderWritesCountsAndTbc : Prop :=
  OnlyWord .enc 0x06 0x00000006 .eEmitHeader ∧
  ∀ s : State,
    (s.enc.core.phase = .codesReady → EndsIn .enc (exec .eEmitHeader s) (s.setCore .enc { s.enc.core with
      output := s.enc.core.output ++
        s.enc.core.count.toList.flatMap (fun c =>
          [.byte (c.extractLsb' 24 8), .byte (c.extractLsb' 16 8), .byte (c.extractLsb' 8 8), .byte (c.extractLsb' 0 8)]) ++
        [.byte (s.enc.core.calcTbc.setWidth 8)]
      outBytes := s.enc.core.outBytes + 1025
      phase := .headerSent, busy := false, done := true })) ∧
    (s.enc.core.phase ≠ .codesReady →
      EndsIn .enc (exec .eEmitHeader s) (withError .enc .sequence (s.enc.core.cur.extractLsb' 0 8) s))

/-- 43_bitpacker R231, R232: `Append(len, pat)`; the flush happens only above 8 pending bits. -/
def Obligations.AppendFlushesAboveEightBits : Prop :=
  ∀ (e : Enc) (k : Code),
    let a := (e.pkAcc.toNat <<< k.len.toNat) ||| k.pat.toNat
    let p := e.pkPend.toNat + k.len.toNat
    (p ≤ 8 → e.append k =
      { e with pkAcc := BitVec.ofNat 8 a, pkPend := BitVec.ofNat 4 p,
               packedBits := e.packedBits + BitVec.ofNat 64 k.len.toNat }) ∧
    (8 < p → e.append k =
      { core := { e.core with
          output := e.core.output ++
            (List.range (p / 8)).map (fun i => .byte (BitVec.ofNat 8 ((a >>> (p - 8 * (i + 1))) &&& 0xFF)))
          outBytes := e.core.outBytes + BitVec.ofNat 64 (p / 8) }
        pkAcc := BitVec.ofNat 8 (a &&& (2 ^ (p % 8) - 1))
        pkPend := BitVec.ofNat 4 (p % 8)
        packedBits := e.packedBits + BitVec.ofNat 64 k.len.toNat })

/-- 43_bitpacker R233: E.PACK appends the symbol's code and completes in PACKING. -/
def Obligations.PackAppendsOneCode : Prop :=
  OnlySymbolWords .enc 0x07 .ePack ∧
  ∀ (s : State) (sym : Symbol),
    (s.enc.core.phase ≠ .headerSent → s.enc.core.phase ≠ .packing →
      EndsIn .enc (exec (.ePack sym) s) (withError .enc .sequence (s.enc.core.cur.extractLsb' 0 8) s)) ∧
    (s.enc.core.phase = .headerSent ∨ s.enc.core.phase = .packing →
      EndsIn .enc (exec (.ePack sym) s) { s with enc :=
        let e := s.enc.append s.enc.core.code[sym.toNat]
        { e with core := { e.core with phase := .packing, busy := false, done := true } } })

/-- 43_bitpacker R234, one micro-step; `begun` is the model's own field (log entry 5) and is left open where the command goes
on. Two clauses are the model's: SEQUENCE at every micro-step out of phase, not only the first (log entry 8), and CUR, STAGE
and HDR_IDX keep their values where the command ends (log entry 4). -/
def Obligations.PackStreamAppendsOneToken : Prop :=
  OnlyWord .enc 0x08 0x00000008 .ePackStream ∧
  ∀ s : State,
    (s.enc.core.phase ≠ .headerSent → s.enc.core.phase ≠ .packing →
      exec .ePackStream s = .next (withError .enc .sequence (s.enc.core.cur.extractLsb' 0 8) s)) ∧
    (s.enc.core.phase = .headerSent ∨ s.enc.core.phase = .packing →
      (s.enc.core.input = [] → exec .ePackStream s = .next s) ∧
      (∀ rest, s.enc.core.input = .eos :: rest →
        exec .ePackStream s = .next (s.setCore .enc { s.enc.core with
          input := rest, phase := .packing, busy := false, done := true })) ∧
      (∀ b rest, s.enc.core.input = .byte b :: rest →
        ∃ go, exec .ePackStream s = .next { s with enc :=
          let e := Enc.append
            { s.enc with core := { s.enc.core with input := rest, inBytes := s.enc.core.inBytes + 1 } }
            s.enc.core.code[b.toNat]
          { e with core := { e.core with begun := go } } }))

/-- 43_bitpacker R235, R236: E.FINISH flushes the pending bits left-aligned, records FIN_TBC, empties the packer, emits EOS
and completes in FINISHED; with totals that differ it raises PASS_MISMATCH, "nothing emitted, nothing changed". -/
def Obligations.FinishFlushesOrRaises : Prop :=
  OnlyWord .enc 0x09 0x00000009 .eFinish ∧
  ∀ s : State,
    (s.enc.core.phase ≠ .headerSent → s.enc.core.phase ≠ .packing →
      EndsIn .enc (exec .eFinish s) (withError .enc .sequence (s.enc.core.cur.extractLsb' 0 8) s)) ∧
    (s.enc.core.phase = .headerSent ∨ s.enc.core.phase = .packing →
      (s.enc.packedBits ≠ s.enc.core.totalBits →
        EndsIn .enc (exec .eFinish s) (withError .enc .passMismatch (s.enc.core.cur.extractLsb' 0 8) s)) ∧
      (s.enc.packedBits = s.enc.core.totalBits → 0 < s.enc.pkPend.toNat →
        EndsIn .enc (exec .eFinish s) { s with enc := { s.enc with
          pkAcc := 0, pkPend := 0
          core := { s.enc.core with
            output := s.enc.core.output ++
              [.byte (BitVec.ofNat 8 ((s.enc.pkAcc.toNat <<< (8 - s.enc.pkPend.toNat)) &&& 0xFF)), .eos]
            outBytes := s.enc.core.outBytes + 1
            auxTbc := s.enc.pkPend.setWidth 8, auxValid := true
            phase := .finished, busy := false, done := true } } }) ∧
      (s.enc.packedBits = s.enc.core.totalBits → s.enc.pkPend = 0 →
        EndsIn .enc (exec .eFinish s) { s with enc := { s.enc with
          pkAcc := 0
          core := { s.enc.core with
            output := s.enc.core.output ++ [.eos], auxTbc := 8, auxValid := true
            phase := .finished, busy := false, done := true } } }))

/-- 45_encoder_control E.PREPARE: its three micro-steps, hand-overs with BUSY and DONE as they are, and the phase requirement.
Which stage runs first is read from the model's own field `begun` (log entry 5). Where the command ends, CUR, STAGE and HDR_IDX
keep their values, which is the model's choice (log entry 4). -/
def Obligations.PrepareRunsThreeStages : Prop :=
  OnlyWord .enc 0x0A 0x0000000A .ePrepare ∧
  ∀ s : State,
    (s.enc.core.begun = false → s.enc.core.phase ≠ .counting →
      exec .ePrepare s = .next (withError .enc .sequence (s.enc.core.cur.extractLsb' 0 8) s)) ∧
    (s.enc.core.begun = false → s.enc.core.phase = .counting →
      exec .ePrepare s = .next (s.setCore .enc { s.enc.core with
        node := treeBuild s.enc.core.count, phase := .treeBuilt, stage := 1, begun := true })) ∧
    (s.enc.core.begun = true → s.enc.core.stage = 1 → s.enc.core.phase = .treeBuilt →
      exec .ePrepare s = .next (s.setCore .enc { s.enc.core with
        code := codeGen s.enc.core.node
        totalBits := totalBitsOf s.enc.core.count (codeGen s.enc.core.node)
        calcTbc := tbcOf (totalBitsOf s.enc.core.count (codeGen s.enc.core.node))
        phase := .codesReady, stage := 2, begun := true })) ∧
    (s.enc.core.begun = true → s.enc.core.stage = 2 → s.enc.core.phase = .codesReady →
      exec .ePrepare s = .next (s.setCore .enc { s.enc.core with
        output := s.enc.core.output ++
          s.enc.core.count.toList.flatMap (fun c =>
            [.byte (c.extractLsb' 24 8), .byte (c.extractLsb' 16 8), .byte (c.extractLsb' 8 8), .byte (c.extractLsb' 0 8)])
          ++ [.byte (s.enc.core.calcTbc.setWidth 8)]
        outBytes := s.enc.core.outBytes + 1025
        phase := .headerSent, busy := false, done := true }))

/-- 45_encoder_control R278, 46_decoder_control R298, one micro-step; `begun` is the model's own field (log entry 5) and is
left open where the command goes on. Where it ends, CUR, STAGE and HDR_IDX keep their values, which is the model's choice (log
entry 4). -/
def Obligations.DrainDiscardsOneToken : Prop :=
  OnlyWord .enc 0x0E 0x0000000E .eDrain ∧ OnlyWord .dec 0x0E 0x0000000E .dDrain ∧
  ∀ s : State,
    (s.enc.core.input = [] → exec .eDrain s = .next s) ∧
    (∀ rest, s.enc.core.input = .eos :: rest →
      exec .eDrain s = .next (s.setCore .enc { s.enc.core with input := rest, busy := false, done := true })) ∧
    (∀ b rest, s.enc.core.input = .byte b :: rest →
      ∃ go, exec .eDrain s = .next (s.setCore .enc { s.enc.core with
        input := rest, inBytes := s.enc.core.inBytes + 1, begun := go })) ∧
    (s.dec.core.input = [] → exec .dDrain s = .next s) ∧
    (∀ rest, s.dec.core.input = .eos :: rest →
      exec .dDrain s = .next (s.setCore .dec { s.dec.core with input := rest, busy := false, done := true })) ∧
    (∀ b rest, s.dec.core.input = .byte b :: rest →
      ∃ go, exec .dDrain s = .next (s.setCore .dec { s.dec.core with
        input := rest, inBytes := s.dec.core.inBytes + 1, begun := go }))

/-- 46_decoder_control R293: D.CHECK_TBC records the stored byte and compares it with CALC_TBC. -/
def Obligations.CheckTbcComparesTheStoredByte : Prop :=
  OnlyWord .dec 0x06 0x00000006 .dCheckTbc ∧
  ∀ s : State,
    (s.dec.core.phase ≠ .codesReady →
      EndsIn .dec (exec .dCheckTbc s) (withError .dec .sequence (s.dec.core.cur.extractLsb' 0 8) s)) ∧
    (s.dec.core.phase = .codesReady → s.dec.core.input = [] → exec .dCheckTbc s = .next s) ∧
    (∀ rest, s.dec.core.phase = .codesReady → s.dec.core.input = .eos :: rest →
      EndsIn .dec (exec .dCheckTbc s) (withError .dec .missingTbc (s.dec.core.cur.extractLsb' 0 8)
        (s.setCore .dec { s.dec.core with input := rest }))) ∧
    (∀ v rest, s.dec.core.phase = .codesReady → s.dec.core.input = .byte v :: rest →
      v.toNat ≠ s.dec.core.calcTbc.toNat →
      EndsIn .dec (exec .dCheckTbc s) (withError .dec .tbcMismatch (s.dec.core.cur.extractLsb' 0 8)
        (s.setCore .dec { s.dec.core with
          input := rest, inBytes := s.dec.core.inBytes + 1, auxTbc := v, auxValid := true }))) ∧
    (∀ v rest, s.dec.core.phase = .codesReady → s.dec.core.input = .byte v :: rest →
      v.toNat = s.dec.core.calcTbc.toNat →
      EndsIn .dec (exec .dCheckTbc s) { s with dec := { s.dec with
        brBuf := 0, brCnt := 0, brLast := false, walkNode := 510
        core := { s.dec.core with
          input := rest, inBytes := s.dec.core.inBytes + 1, auxTbc := v, auxValid := true
          phase := .decoding, busy := false, done := true } } })

/-- 44_bitreader R251, R252: the micro-steps of D.WALK. `begun` is the model's own field (log entry 5) and is left open where
the command goes on. Two clauses are the model's: SEQUENCE at every micro-step out of phase, not only the first (log entry 8),
and CUR, STAGE and HDR_IDX keep their values where the command ends (log entry 4). -/
def Obligations.WalkDecodesOneSymbol : Prop :=
  OnlyWord .dec 0x07 0x00000007 .dWalk ∧
  ∀ s : State,
    (s.dec.core.phase ≠ .decoding →
      exec .dWalk s = .next (withError .dec .sequence (s.dec.core.cur.extractLsb' 0 8) s)) ∧
    (s.dec.core.phase = .decoding →
      (∀ d, HasBit s.dec d → (childTaken d).toNat ≤ 255 →
        exec .dWalk s = .next { s with dec := { afterBit d with
          core := { (afterBit d).core with phase := .decoding, busy := false, done := true } } }) ∧
      (∀ d, HasBit s.dec d → 255 < (childTaken d).toNat →
        ∃ go, exec .dWalk s = .next { s with dec := { afterBit d with core := { (afterBit d).core with begun := go } } }) ∧
      (∀ rest, s.dec.brCnt = 0 → s.dec.core.input = .eos :: rest → s.dec.walkNode = 510 →
        exec .dWalk s = .next { s with dec := { s.dec with
          eop := true
          core := { s.dec.core with
            input := rest, output := s.dec.core.output ++ [.eos], phase := .done, busy := false, done := true } } }) ∧
      (∀ rest, s.dec.brCnt = 0 → s.dec.core.input = .eos :: rest → s.dec.walkNode ≠ 510 →
        exec .dWalk s = .next (withError .dec .incompleteCode (s.dec.core.cur.extractLsb' 0 8)
          (s.setCore .dec { s.dec.core with input := rest }))) ∧
      (s.dec.brCnt = 0 → s.dec.core.input = [] → exec .dWalk s = .next s) ∧
      (∀ b, s.dec.brCnt = 0 → s.dec.core.input = [.byte b] → exec .dWalk s = .next s))

/-- 44_bitreader R251, R253: the micro-steps of D.DECODE_STREAM; a symbol does not end it. `begun` is the model's own field
(log entry 5) and is left open where the command goes on. Two clauses are the model's: SEQUENCE at every micro-step out of
phase, not only the first (log entry 8), and CUR, STAGE and HDR_IDX keep their values where the command ends (log entry 4). -/
def Obligations.DecodeStreamGoesOnAfterASymbol : Prop :=
  OnlyWord .dec 0x08 0x00000008 .dDecodeStream ∧
  ∀ s : State,
    (s.dec.core.phase ≠ .decoding →
      exec .dDecodeStream s = .next (withError .dec .sequence (s.dec.core.cur.extractLsb' 0 8) s)) ∧
    (s.dec.core.phase = .decoding →
      (∀ d, HasBit s.dec d →
        ∃ go, exec .dDecodeStream s =
          .next { s with dec := { afterBit d with core := { (afterBit d).core with begun := go } } }) ∧
      (∀ rest, s.dec.brCnt = 0 → s.dec.core.input = .eos :: rest → s.dec.walkNode = 510 →
        exec .dDecodeStream s = .next { s with dec := { s.dec with
          eop := true
          core := { s.dec.core with
            input := rest, output := s.dec.core.output ++ [.eos], phase := .done, busy := false, done := true } } }) ∧
      (∀ rest, s.dec.brCnt = 0 → s.dec.core.input = .eos :: rest → s.dec.walkNode ≠ 510 →
        exec .dDecodeStream s = .next (withError .dec .incompleteCode (s.dec.core.cur.extractLsb' 0 8)
          (s.setCore .dec { s.dec.core with input := rest }))) ∧
      (s.dec.brCnt = 0 → s.dec.core.input = [] → exec .dDecodeStream s = .next s) ∧
      (∀ b, s.dec.brCnt = 0 → s.dec.core.input = [.byte b] → exec .dDecodeStream s = .next s))

/-- 46_decoder_control D.RUN: the phase requirement; what each stage does, with its hand-over, its holds and its errors
(TRUNCATED_HEADER in STAGE 0, MISSING_TBC and TBC_MISMATCH in STAGE 3, those of D.DECODE_STREAM in STAGE 4); and its completion
at the end of the payload. Its first micro-step and the reading of its stage rest on the model's own field `begun` (log entries
5 and 9). Where the command ends, CUR, STAGE and HDR_IDX keep their values, the model's choice (log entry 4); STAGE 4 has
D.DECODE_STREAM's phase check at every micro-step (log entry 8). -/
def Obligations.RunHandsOverAndCompletes : Prop :=
  OnlyWord .dec 0x0F 0x0000000F .dRun ∧
  ∀ s : State,
    (s.dec.core.begun = false → s.dec.core.phase ≠ .ready →
      exec .dRun s = .next (withError .dec .sequence (s.dec.core.cur.extractLsb' 0 8) s)) ∧
    (s.dec.core.begun = false → s.dec.core.phase = .ready →
      exec .dRun s = .next { s with dec := { s.dec with
        hdrIdx := 0, core := { s.dec.core with stage := 0, begun := true } } }) ∧
    (∀ b rest (h : s.dec.hdrIdx < 1024), s.dec.core.begun = true → s.dec.core.stage = 0 → s.dec.core.phase = .ready →
      s.dec.core.input = .byte b :: rest →
      exec .dRun s = .next { s with dec := { s.dec with
        hdrIdx := s.dec.hdrIdx + 1
        core := { s.dec.core with
          input := rest
          inBytes := s.dec.core.inBytes + 1
          phase := if s.dec.hdrIdx = 1023 then .headerLoaded else .ready
          stage := if s.dec.hdrIdx = 1023 then 1 else 0
          count := s.dec.core.count.set (s.dec.hdrIdx / 4)
            ((s.dec.core.count[s.dec.hdrIdx / 4] &&& ~~~((0xFF : BitVec 32) <<< (24 - 8 * (s.dec.hdrIdx % 4)))) |||
              (b.setWidth 32 <<< (24 - 8 * (s.dec.hdrIdx % 4)))) } } }) ∧
    (∀ rest, s.dec.core.begun = true → s.dec.core.stage = 0 → s.dec.core.phase = .ready → s.dec.core.input = .eos :: rest →
      exec .dRun s = .next (withError .dec .truncatedHeader (s.dec.core.cur.extractLsb' 0 8)
        (s.setCore .dec { s.dec.core with input := rest }))) ∧
    (s.dec.core.begun = true → s.dec.core.stage = 0 → s.dec.core.phase = .ready → s.dec.core.input = [] →
      exec .dRun s = .next s) ∧
    (s.dec.core.begun = true → s.dec.core.stage = 1 → s.dec.core.phase = .headerLoaded →
      exec .dRun s = .next (s.setCore .dec { s.dec.core with
        node := treeBuild s.dec.core.count, phase := .treeBuilt, stage := 2 })) ∧
    (s.dec.core.begun = true → s.dec.core.stage = 2 → s.dec.core.phase = .treeBuilt →
      exec .dRun s = .next (s.setCore .dec { s.dec.core with
        code := codeGen s.dec.core.node
        totalBits := totalBitsOf s.dec.core.count (codeGen s.dec.core.node)
        calcTbc := tbcOf (totalBitsOf s.dec.core.count (codeGen s.dec.core.node))
        phase := .codesReady, stage := 3 })) ∧
    (∀ v rest, s.dec.core.begun = true → s.dec.core.stage = 3 → s.dec.core.phase = .codesReady →
      s.dec.core.input = .byte v :: rest → v.toNat = s.dec.core.calcTbc.toNat →
      exec .dRun s = .next { s with dec := { s.dec with
        brBuf := 0, brCnt := 0, brLast := false, walkNode := 510
        core := { s.dec.core with
          input := rest, inBytes := s.dec.core.inBytes + 1, auxTbc := v, auxValid := true
          phase := .decoding, stage := 4 } } }) ∧
    (∀ v rest, s.dec.core.begun = true → s.dec.core.stage = 3 → s.dec.core.phase = .codesReady →
      s.dec.core.input = .byte v :: rest → v.toNat ≠ s.dec.core.calcTbc.toNat →
      exec .dRun s = .next (withError .dec .tbcMismatch (s.dec.core.cur.extractLsb' 0 8)
        (s.setCore .dec { s.dec.core with
          input := rest, inBytes := s.dec.core.inBytes + 1, auxTbc := v, auxValid := true }))) ∧
    (∀ rest, s.dec.core.begun = true → s.dec.core.stage = 3 → s.dec.core.phase = .codesReady →
      s.dec.core.input = .eos :: rest →
      exec .dRun s = .next (withError .dec .missingTbc (s.dec.core.cur.extractLsb' 0 8)
        (s.setCore .dec { s.dec.core with input := rest }))) ∧
    (s.dec.core.begun = true → s.dec.core.stage = 3 → s.dec.core.phase = .codesReady → s.dec.core.input = [] →
      exec .dRun s = .next s) ∧
    (s.dec.core.begun = true → s.dec.core.stage = 4 → exec .dRun s = exec .dDecodeStream s) ∧
    (∀ rest, s.dec.core.begun = true → s.dec.core.stage = 4 → s.dec.core.phase = .decoding → s.dec.brCnt = 0 →
      s.dec.core.input = .eos :: rest → s.dec.walkNode = 510 →
      exec .dRun s = .next { s with dec := { s.dec with
        eop := true
        core := { s.dec.core with
          input := rest, output := s.dec.core.output ++ [.eos], phase := .done, busy := false, done := true } } })

/-! ## Frames and whole-machine rules -/

/-- 10_state R30: a unit's micro-step reads and writes its own state alone. -/
def Obligations.UnitsShareNothing : Prop :=
  ∀ s : State,
    (∃ e, ∀ s' : State, s'.enc = s.enc → unitStep .enc s' = .next { s' with enc := e }) ∧
    (∃ d, ∀ s' : State, s'.dec = s.dec → unitStep .dec s' = .next { s' with dec := d })

/-- The frame of every command: what it leaves unchanged in its own unit, and that it changes nothing outside that unit
(10_state R30, R40, R42, R43 to R50, R53, R58 to R61). That CUR (R63) stays also where the command ends and CUR is meaningless is
the model's choice (log entry 4). -/
def Obligations.CommandsFrame : Prop :=
  ∀ (i : Instr) (s t : State), exec i s = .next t →
    (i.unit = .enc →
      t = { s with enc := t.enc } ∧ CommonFrame i s.enc.core t.enc.core ∧
      (writesBits i = false → t.enc.pkAcc = s.enc.pkAcc ∧ t.enc.pkPend = s.enc.pkPend) ∧
      (writesBitCounter i = false → t.enc.packedBits = s.enc.packedBits)) ∧
    (i.unit = .dec →
      t = { s with dec := t.dec } ∧ CommonFrame i s.dec.core t.dec.core ∧
      (writesBits i = false →
        t.dec.brBuf = s.dec.brBuf ∧ t.dec.brCnt = s.dec.brCnt ∧ t.dec.brLast = s.dec.brLast ∧
        t.dec.walkNode = s.dec.walkNode) ∧
      (writesBitCounter i = false → t.dec.consumedBits = s.dec.consumedBits ∧ t.dec.eop = s.dec.eop))

/-- 20_memory R100, R102, 40_command_model R156: a micro-step removes at most the oldest input token, and only adds tokens at
the end of the output. -/
def Obligations.MicroStepTakesAtMostOneToken : Prop :=
  ∀ (i : Instr) (s t : State), exec i s = .next t →
    ((t.core i.unit).input = (s.core i.unit).input ∨ ∃ tok, (s.core i.unit).input = tok :: (t.core i.unit).input) ∧
    ∃ new, (t.core i.unit).output = (s.core i.unit).output ++ new

/-- 40_command_model R159: no command reads IRQ_EN, CT_SEL or NODE_SEL. -/
def Obligations.CommandsIgnoreHostSelections : Prop :=
  ∀ (ct : Symbol) (nd : NodeIdx) (di ei : Bool) (i : Instr) (s : State),
    let pick (t : State) : State :=
      (t.setCore .enc { t.enc.core with ctSel := ct, nodeSel := nd, doneIe := di, errIe := ei }).setCore .dec
        { t.dec.core with ctSel := ct, nodeSel := nd, doneIe := di, errIe := ei }
    exec i (pick s) = andThen (exec i s) fun t => .next (pick t)

/-! ## Trees and codes -/

/-- 42_tree_codes R202: "Children are always created before their parent". -/
def Obligations.ChildrenPrecedeParents : Prop :=
  ∀ (count : Vector (BitVec 32) 256) (m : Nat) (h : m < 511), 256 ≤ m →
    (treeBuild count)[m].l.toNat < m ∧ (treeBuild count)[m].r.toNat < m

/-- 42_tree_codes R200, R201: a leaf weighs its count, an internal node exactly the sum of its children, with no overflow of
40 bits; the root weighs the sum of all counts. -/
def Obligations.WeightsAreExactSums : Prop :=
  ∀ count : Vector (BitVec 32) 256,
    (∀ (n : Nat) (h : n < 256), (treeBuild count)[n].w.toNat = count[n].toNat) ∧
    (∀ (m : Nat) (h : m < 511), 256 ≤ m →
      (treeBuild count)[m].w.toNat =
        (nodeOf (treeBuild count) (treeBuild count)[m].l).w.toNat +
          (nodeOf (treeBuild count) (treeBuild count)[m].r).w.toNat) ∧
    (treeBuild count)[510].w.toNat = (count.toList.map BitVec.toNat).sum

/-- 42_tree_codes R201: the leaves weigh their counts, zero-extended, and the internal nodes are those of the merges that take
"the n in A with the least (NODE[n].W, n)" twice from an unordered set; and the left child comes before the right one in the
order of weight, then index. -/
def Obligations.TreeBuildTakesTheTwoLeast : Prop :=
  ∀ count : Vector (BitVec 32) 256,
    (∀ (n : Nat) (h : n < 256), (treeBuild count)[n].w = count[n].setWidth 40) ∧
    (treeBuild count).toList.drop 256 = mergeByLeast 255 256 (leafActives count) ∧
    ∀ (m : Nat) (h : m < 511), 256 ≤ m →
      let l := (treeBuild count)[m].l
      let r := (treeBuild count)[m].r
      (nodeOf (treeBuild count) l).w.toNat < (nodeOf (treeBuild count) r).w.toNat ∨
      ((nodeOf (treeBuild count) l).w.toNat = (nodeOf (treeBuild count) r).w.toNat ∧ l.toNat < r.toNat)

/-- 42_tree_codes R213: the two-queue method, with the leaves "sorted by (weight, symbol)" in one queue, "yields the same tree as
rule R201", and internal weights never decrease in creation order. -/
def Obligations.TwoQueuesBuildTheSameTree : Prop :=
  ∀ count : Vector (BitVec 32) 256,
    (firstActives count).Perm (leafActives count) ∧
    (firstActives count).Pairwise (fun a b => a.w < b.w ∨ (a.w = b.w ∧ a.n < b.n)) ∧
    (treeBuild count).toList.drop 256 = mergeTwoQueues 255 256 (firstActives count) [] ∧
    ∀ (m : Nat) (h : m < 510), 256 ≤ m → (treeBuild count)[m].w.toNat ≤ (treeBuild count)[m + 1].w.toNat

/-- 42_tree_codes R212: every code has a length of 1 to 255 bits and a pattern below 2^LEN; no code is a prefix of another;
and the codes are complete (Σ 2^(−LEN) = 1, here times 2^255). -/
def Obligations.CodesArePrefixFreeAndComplete : Prop :=
  ∀ count : Vector (BitVec 32) 256,
    (∀ (x : Nat) (h : x < 256),
      1 ≤ (codeTable count)[x].len.toNat ∧ (codeTable count)[x].len.toNat ≤ 255 ∧
      (codeTable count)[x].pat.toNat < 2 ^ (codeTable count)[x].len.toNat) ∧
    (∀ (x y : Nat) (hx : x < 256) (hy : y < 256),
      codeBits (codeTable count)[x] <+: codeBits (codeTable count)[y] → x = y) ∧
    ((codeTable count).toList.map fun k => 2 ^ (255 - k.len.toNat)).sum = 2 ^ 255

/-- 42_tree_codes R212 with 44_bitreader R250: the walk from the root along a symbol's code ends at that symbol's leaf. -/
def Obligations.WalkAlongACodeReachesItsSymbol : Prop :=
  ∀ (count : Vector (BitVec 32) 256) (x : Nat) (h : x < 256),
    (walkBits (treeBuild count) rootNode (codeBits (codeTable count)[x])).toNat = x

/-- 42_tree_codes R206, R207, 10_state R44: TOTAL_BITS holds the exact sum of COUNT[s] × CODE[s].LEN over the 256 symbols, which
is below 2^48, and CALC_TBC is that sum modulo 8, mapped into 1..8. -/
def Obligations.TotalBitsIsExact : Prop :=
  ∀ (count : Vector (BitVec 32) 256) (code : Vector Code 256),
    let sum := ((List.finRange 256).map fun x => count[x].toNat * code[x].len.toNat).sum
    sum < 2 ^ 48 ∧ totalBitsNat count code = sum ∧ (totalBitsOf count code).toNat = sum ∧
    (tbcOf (totalBitsOf count code)).toNat = (if sum % 8 = 0 then 8 else sum % 8)

/-- 30_encoding R136, 41_frequency R183: which byte of a count stands where in the header; and loading the 1024 header bytes of
any count table, in order, gives the table back, whatever COUNT held before. -/
def Obligations.HeaderLoadInvertsHeaderBytes : Prop :=
  ∀ (c : Common) (count : Vector (BitVec 32) 256),
    (headerBytes count).length = 1024 ∧
    (∀ (x : Nat) (h : x < 256),
      (headerBytes count)[4 * x]? = some (count[x].extractLsb' 24 8) ∧
      (headerBytes count)[4 * x + 1]? = some (count[x].extractLsb' 16 8) ∧
      (headerBytes count)[4 * x + 2]? = some (count[x].extractLsb' 8 8) ∧
      (headerBytes count)[4 * x + 3]? = some (count[x].extractLsb' 0 8)) ∧
    ((headerBytes count).zipIdx.foldl (fun acc p => acc.loadHeaderByte p.2 p.1) c).count = count

/-! ## Whole runs

In these the output stream is unbounded, as the spec's model has it (20_memory R105); on the chip they hold under the host's duty
to take every token (70_reset R362, log entry 20). -/

/-- 41_frequency R182, R185: E.ACCUM_STREAM over a whole copy of the input adds, to every count, how often the symbol occurs
in it, and counts its bytes in IN_BYTES. -/
def Obligations.AccumStreamCountsTheInput : Prop :=
  ∀ (x : List Byte) (rest : List Token) (s : State), s.enc.core.phase = .counting →
    s.enc.core.input = x.map .byte ++ .eos :: rest →
    (∀ b : Byte, s.enc.core.count[b.toNat].toNat + x.count b < 2 ^ 32) →
    ∃ t, execN (x.length + 1) .eAccumStream s = .next t ∧ t = { s with enc := { s.enc with core := t.enc.core } } ∧
      (∀ b : Byte, t.enc.core.count[b.toNat].toNat = s.enc.core.count[b.toNat].toNat + x.count b) ∧
      t.enc.core.inBytes = s.enc.core.inBytes + BitVec.ofNat 64 x.length ∧ t.enc.core.input = rest ∧
      t.enc.core.output = s.enc.core.output ∧ t.enc.core.phase = .counting ∧ t.enc.core.busy = false ∧
      t.enc.core.done = true

/-- 43_bitpacker R234, R238 for E.PACK_STREAM over a whole copy of the input, in either phase and from any pending bits: the bits
of the bytes emitted followed by the bits then pending are the bits pending before followed by the codes of the input,
concatenated; the command consumes the copy and its EOS, counts its bytes in IN_BYTES and completes in PACKING. -/
def Obligations.PackStreamEmitsTheCodeBits : Prop :=
  ∀ (x : List Byte) (rest : List Token) (s : State), s.enc.core.phase = .headerSent ∨ s.enc.core.phase = .packing →
    s.enc.core.input = x.map .byte ++ .eos :: rest → s.enc.pkPend.toNat ≤ 8 →
    s.enc.pkAcc.toNat < 2 ^ s.enc.pkPend.toNat →
    (∀ b : Byte, s.enc.core.code[b.toNat].pat.toNat < 2 ^ s.enc.core.code[b.toNat].len.toNat) →
    ∃ (t : State) (bytes : List Byte), execN (x.length + 1) .ePackStream s = .next t ∧
      t.enc.core.phase = .packing ∧ t.enc.core.busy = false ∧ t.enc.core.done = true ∧ t.enc.core.input = rest ∧
      t.enc.core.inBytes = s.enc.core.inBytes + BitVec.ofNat 64 x.length ∧
      t.enc.core.output = s.enc.core.output ++ bytes.map .byte ∧
      t.enc.core.outBytes = s.enc.core.outBytes + BitVec.ofNat 64 bytes.length ∧
      t.enc.pkPend.toNat ≤ 8 ∧ t.enc.pkAcc.toNat < 2 ^ t.enc.pkPend.toNat ∧
      bytes.flatMap bitsOfByte ++ pendingBits t.enc = pendingBits s.enc ++ payloadBits s.enc.core.code x ∧
      t.enc.packedBits = s.enc.packedBits + BitVec.ofNat 64 (payloadBits s.enc.core.code x).length

/-- 40_command_model R161, R163, R167: from the state a CLEAR leaves, the encoder's commands on an input sent twice, each copy
ending in EOS, emit exactly `EncodeFile(x)` and one EOS, for every `x` in which no byte value occurs 2^32 times. At the end the
counts are those of `x` and sum to its length, IN_BYTES has risen by twice that (R164), PACKED_BITS is TOTAL_BITS and FIN_TBC is
CALC_TBC (43_bitpacker R237), and OUT_BYTES has risen by the file's length, 1025 and the payload's (10_state R46). -/
def Obligations.EncoderRunWritesEncodedFile : Prop :=
  ∀ (x : List Byte) (rest : List Token) (s : State), (∀ b : Byte, x.count b < 2 ^ 32) →
    s.enc.core.phase = .counting → s.enc.core.count = Vector.replicate 256 0 → s.enc.pkAcc = 0 → s.enc.pkPend = 0 →
    s.enc.packedBits = 0 → s.enc.core.input = x.map .byte ++ .eos :: (x.map .byte ++ .eos :: rest) →
    ∃ t, andThen (andThen (andThen (andThen (andThen (execN (x.length + 1) .eAccumStream s)
          (exec .eBuildTree)) (exec .eGenCodes)) (exec .eEmitHeader)) (execN (x.length + 1) .ePackStream))
          (exec .eFinish) = .next t ∧
      t.enc.core.phase = .finished ∧ t.enc.core.busy = false ∧ t.enc.core.done = true ∧ t.enc.core.input = rest ∧
      t.enc.core.output = s.enc.core.output ++ (encodeFile x).map .byte ++ [.eos] ∧
      t.enc.core.count = countTable x ∧ (t.enc.core.count.toList.map BitVec.toNat).sum = x.length ∧
      t.enc.core.inBytes = s.enc.core.inBytes + BitVec.ofNat 64 (2 * x.length) ∧
      t.enc.packedBits = t.enc.core.totalBits ∧
      t.enc.core.auxTbc = t.enc.core.calcTbc.setWidth 8 ∧ t.enc.core.auxValid = true ∧
      t.enc.core.outBytes = s.enc.core.outBytes + BitVec.ofNat 64 (encodeFile x).length ∧
      (encodeFile x).length = 1025 + ((payloadBits (codeTable (countTable x)) x).length + 7) / 8

/-- 40_command_model R162, R163, R167, 44_bitreader R254: D.RUN on an encoded file and its EOS emits the original bytes and one
EOS, and completes in DONE; on any byte sequence `f` and its EOS it ends as `DecodeFile(f)` says, with that output or in ERROR
with that cause; and `DecodeFile(EncodeFile(x))` is `x`. That D.RUN is at its first micro-step is said through the model's own
field `begun` (log entry 5). -/
def Obligations.RunDecodesEncodedFile : Prop :=
  (∀ (x : List Byte) (rest : List Token) (s : State), (∀ b : Byte, x.count b < 2 ^ 32) →
    s.dec.core.phase = .ready → s.dec.core.begun = false →
    s.dec.core.input = (encodeFile x).map .byte ++ .eos :: rest →
    ∃ n t, execN n .dRun s = .next t ∧ t.dec.core.phase = .done ∧ t.dec.eop = true ∧ t.dec.core.busy = false ∧
      t.dec.core.done = true ∧ t.dec.core.input = rest ∧
      t.dec.core.output = s.dec.core.output ++ x.map .byte ++ [.eos]) ∧
  (∀ (f : List Byte) (rest : List Token) (s : State), s.dec.core.phase = .ready → s.dec.core.begun = false →
    s.dec.core.input = f.map .byte ++ .eos :: rest →
    ∃ n t, execN n .dRun s = .next t ∧ t.dec.core.busy = false ∧
      match decodeFile f with
      | .bytes x => t.dec.core.phase = .done ∧ t.dec.eop = true ∧ t.dec.core.done = true ∧ t.dec.core.input = rest ∧
          t.dec.core.output = s.dec.core.output ++ x.map .byte ++ [.eos]
      | .failed k => t.dec.core.phase = .error ∧ t.dec.core.errCause = ⟨k.code, s.dec.core.cur.extractLsb' 0 8, k.kind⟩) ∧
  ∀ x : List Byte, (∀ b : Byte, x.count b < 2 ^ 32) → decodeFile (encodeFile x) = .bytes x

/-- 40_command_model R166, 60_exceptions R313 to R315: D.RUN ends in ERROR with nothing emitted on a file cut short before its
offset 1024 (TRUNCATED_HEADER), cut at exactly 1024 bytes (MISSING_TBC), and on a file whose TBC byte is another than the one its
counts give (TBC_MISMATCH); what it has consumed is what R321 says. The numbers of micro-steps count the first one, which takes no
token (log entry 9). -/
def Obligations.CorruptFilesAreDetected : Prop :=
  (∀ (f : List Byte) (rest : List Token) (s : State), f.length < 1024 → s.dec.core.phase = .ready →
    s.dec.core.begun = false → s.dec.core.input = f.map .byte ++ .eos :: rest →
    ∃ t, execN (f.length + 2) .dRun s = .next t ∧ t.dec.core.phase = .error ∧
      t.dec.core.errCause = ⟨0x20, s.dec.core.cur.extractLsb' 0 8, 1⟩ ∧ t.dec.core.busy = false ∧
      t.dec.core.input = rest ∧ t.dec.core.output = s.dec.core.output ∧
      t.dec.core.inBytes = s.dec.core.inBytes + BitVec.ofNat 64 f.length) ∧
  (∀ (f : List Byte) (rest : List Token) (s : State), f.length = 1024 → s.dec.core.phase = .ready →
    s.dec.core.begun = false → s.dec.core.input = f.map .byte ++ .eos :: rest →
    ∃ t, execN (f.length + 4) .dRun s = .next t ∧ t.dec.core.phase = .error ∧
      t.dec.core.errCause = ⟨0x21, s.dec.core.cur.extractLsb' 0 8, 1⟩ ∧ t.dec.core.busy = false ∧
      t.dec.core.input = rest ∧ t.dec.core.output = s.dec.core.output ∧
      t.dec.core.inBytes = s.dec.core.inBytes + BitVec.ofNat 64 f.length) ∧
  (∀ (count : Vector (BitVec 32) 256) (v : Byte) (rest : List Token) (s : State), s.dec.core.phase = .ready →
    s.dec.core.begun = false → s.dec.core.input = (headerBytes count).map .byte ++ .byte v :: rest →
    v.toNat ≠ (tbcOf (totalBitsOf count (codeTable count))).toNat →
    ∃ t, execN ((headerBytes count).length + 4) .dRun s = .next t ∧ t.dec.core.phase = .error ∧
      t.dec.core.errCause = ⟨0x22, s.dec.core.cur.extractLsb' 0 8, 2⟩ ∧ t.dec.core.busy = false ∧
      t.dec.core.auxTbc = v ∧ t.dec.core.auxValid = true ∧
      t.dec.core.calcTbc = tbcOf (totalBitsOf count (codeTable count)) ∧
      t.dec.core.input = rest ∧ t.dec.core.output = s.dec.core.output ∧
      t.dec.core.inBytes = s.dec.core.inBytes + BitVec.ofNat 64 ((headerBytes count).length + 1))

/-! ## Invariants -/

/-- Both invariants hold at reset (10_state R66). That HDR_IDX, meaningless at reset, is at most 1024 there rests on the model's
value for it (log entry 4); the clause of StatusInv on the model's own `countInit` is log entry 6. -/
def Obligations.InvariantsHoldAtReset : Prop := StatusInv State.reset ∧ DataInv State.reset

/-- Every step keeps the invariant of STATUS and ERR_CAUSE (10_state R36, R38, R39, R41), and that outside IDLE and ERROR a CLEAR
has completed since reset (70_reset R351), which the model's own `countInit` records (log entry 6). -/
def Obligations.StepKeepsStatusInvariant : Prop := ∀ s t : State, StatusInv s → step s = .next t → StatusInv t

/-- Every step keeps the invariant of the datapath (10_state R47, R48, R61 to R63). HDR_IDX stays in its range also while it is
meaningless, because the model keeps its last value and resets it to 0 (log entry 4). -/
def Obligations.StepKeepsDataInvariant : Prop := ∀ s t : State, DataInv s → step s = .next t → DataInv t

/-! ## Reset, registers, interrupt, streams -/

/-- 10_state R66, 70_reset R350: the values the spec gives at reset; and the reset event puts both units together into that state.
The last clause is the model's whole reset state: with it COUNT, NODE and CODE take the values of log entry 3 and CUR, STAGE and
HDR_IDX those of log entry 4, where the spec calls them unspecified or meaningless, and agenda, turn, replies and draws stay (log
entry 16). -/
def Obligations.ResetValues : Prop :=
  (∀ u : UnitId,
    let c := State.reset.core u
    c.phase = .idle ∧ c.busy = false ∧ c.done = false ∧ c.err = false ∧ c.errCause = ⟨0, 0, 0⟩ ∧ c.doneIe = false ∧
    c.errIe = false ∧ c.calcTbc = 0 ∧ c.auxTbc = 0 ∧ c.auxValid = false ∧ c.totalBits = 0 ∧ c.inBytes = 0 ∧
    c.outBytes = 0 ∧ c.ctSel = 0 ∧ c.nodeSel = 0 ∧ c.input = [] ∧ c.output = [] ∧ c.irq = false) ∧
  State.reset.enc.pkAcc = 0 ∧ State.reset.enc.pkPend = 0 ∧ State.reset.enc.packedBits = 0 ∧ State.reset.dec.brBuf = 0 ∧
  State.reset.dec.brCnt = 0 ∧ State.reset.dec.brLast = false ∧ State.reset.dec.walkNode = 510 ∧
  State.reset.dec.consumedBits = 0 ∧ State.reset.dec.eop = false ∧
  ∀ s : State, hostMove .reset s = .next { s with enc := State.reset.enc, dec := State.reset.dec }

/-- 10_state R37: the fields of the STATUS word, at offset 0x00C, read exactly whether the unit is busy or not. -/
def Obligations.StatusWordFields : Prop :=
  ∀ (s : State) (u : UnitId), ∃ w : Word, hostMove (.read u 0x00C 32) s = .next (s.reply (.value w)) ∧
    w.getLsbD 0 = (s.core u).busy ∧ w.getLsbD 1 = (s.core u).done ∧
    w.getLsbD 2 = decide ((s.core u).phase = .error) ∧
    w.getLsbD 3 = (match u with | .enc => false | .dec => s.dec.eop) ∧
    w.extractLsb' 4 4 = 0 ∧ w.extractLsb' 8 4 = (s.core u).phase.value u ∧ w.extractLsb' 12 20 = 0

/-- 10_state R33, R34, R41, R42, R50, R53: what ID, VERSION, ERR_CAUSE, IRQ_EN, CT_SEL and NODE_SEL read, BUSY or not; and R35,
R43 to R49, R57: what the other registers outside the readback windows read while BUSY = 0. -/
def Obligations.RegisterReads : Prop :=
  ∀ (s : State) (u : UnitId),
    (Reads u 0x000 s (match u with | .enc => 0x48454E43 | .dec => 0x48444543) ∧
     Reads u 0x004 s 0x00000001 ∧
     (∃ w, Reads u 0x010 s w ∧ w.extractLsb' 0 8 = (s.core u).errCause.code ∧
       w.extractLsb' 8 8 = (s.core u).errCause.opc ∧ w.extractLsb' 16 4 = (s.core u).errCause.kind ∧
       w.extractLsb' 20 12 = 0) ∧
     (∃ w, Reads u 0x014 s w ∧ w.getLsbD 0 = (s.core u).doneIe ∧ w.getLsbD 1 = (s.core u).errIe ∧
       w.extractLsb' 2 30 = 0) ∧
     Reads u 0x050 s ((s.core u).ctSel.setWidth 32) ∧
     Reads u 0x078 s ((s.core u).nodeSel.setWidth 32)) ∧
    ((s.core u).busy = false →
      Reads u 0x008 s 0x00000000 ∧
      (∃ w, Reads u 0x018 s w ∧ w.extractLsb' 0 4 = (s.core u).calcTbc ∧ w.extractLsb' 4 4 = 0 ∧
        w.extractLsb' 8 8 = (s.core u).auxTbc ∧ w.getLsbD 16 = (s.core u).auxValid ∧ w.extractLsb' 17 15 = 0) ∧
      Reads u 0x020 s ((s.core u).totalBits.extractLsb' 0 32) ∧
      Reads u 0x024 s ((s.core u).totalBits.extractLsb' 32 32) ∧
      Reads u 0x028 s ((s.core u).inBytes.extractLsb' 0 32) ∧ Reads u 0x02C s ((s.core u).inBytes.extractLsb' 32 32) ∧
      Reads u 0x030 s ((s.core u).outBytes.extractLsb' 0 32) ∧ Reads u 0x034 s ((s.core u).outBytes.extractLsb' 32 32) ∧
      (∃ w, Reads u 0x038 s w ∧
        match u with
        | .enc => w.extractLsb' 0 8 = s.enc.pkAcc ∧ w.extractLsb' 8 4 = s.enc.pkPend ∧ w.extractLsb' 12 20 = 0
        | .dec =>
          w.extractLsb' 0 8 = s.dec.brBuf ∧ w.extractLsb' 8 4 = s.dec.brCnt ∧ w.getLsbD 12 = s.dec.brLast ∧
          w.extractLsb' 13 3 = 0 ∧ w.extractLsb' 16 9 = s.dec.walkNode ∧ w.extractLsb' 25 7 = 0) ∧
      (let bits := match u with | .enc => s.enc.packedBits | .dec => s.dec.consumedBits
       Reads u 0x040 s (bits.extractLsb' 0 32) ∧ Reads u 0x044 s (bits.extractLsb' 32 32)) ∧
      ∀ off : BitVec 12, off.toNat % 4 = 0 →
        (off.toNat ∈ [0x01C, 0x03C, 0x048, 0x04C] ∨ (0x088 ≤ off.toNat ∧ off.toNat ≤ 0x3FC) ∨ 0x800 ≤ off.toNat) →
        Reads u off s 0x00000000)

/-- 10_state R51 to R56: what the readback windows show while BUSY = 0, in the phases in which they are valid (R62). That
COUNT is shown in ERROR once a CLEAR has completed since reset is the model's reading of R56 (`countInit`, log entry 6), and that
NODE_SEL = 511 reads 0 in every phase is its reading of R53 (log entry 11). -/
def Obligations.ReadbackWindowsShowTables : Prop :=
  ∀ (s : State) (u : UnitId), (s.core u).busy = false →
    let c := s.core u
    (codesValid u c.phase = true → Reads u 0x054 s (c.code[c.ctSel.toNat].len.setWidth 32)) ∧
    (codesValid u c.phase = true → ∀ i : Nat, i < 8 → ∃ w, Reads u (BitVec.ofNat 12 (0x058 + 4 * i)) s w ∧
      ∀ j : Nat, j < 32 → w.getLsbD j = c.code[c.ctSel.toNat].pat.getLsbD (32 * i + j)) ∧
    (c.nodeSel.toNat = 511 →
      Reads u 0x07C s 0x00000000 ∧ Reads u 0x080 s 0x00000000 ∧ Reads u 0x084 s 0x00000000) ∧
    (treeValid u c.phase = true → ∀ h : c.nodeSel.toNat < 511,
      (c.nodeSel.toNat ≤ 255 → Reads u 0x07C s (BitVec.ofNat 32 c.nodeSel.toNat)) ∧
      (256 ≤ c.nodeSel.toNat → ∃ w, Reads u 0x07C s w ∧ w.extractLsb' 0 9 = c.node[c.nodeSel.toNat].l ∧
        w.extractLsb' 9 9 = c.node[c.nodeSel.toNat].r ∧ w.extractLsb' 18 13 = 0 ∧ w.getLsbD 31 = true) ∧
      Reads u 0x080 s (c.node[c.nodeSel.toNat].w.extractLsb' 0 32) ∧
      Reads u 0x084 s ((c.node[c.nodeSel.toNat].w.extractLsb' 32 8).setWidth 32)) ∧
    ((c.phase ≠ .idle ∧ c.phase ≠ .error) ∨ (c.phase = .error ∧ c.countInit = true) → ∀ (x : Nat) (h : x < 256),
      Reads u (BitVec.ofNat 12 (0x400 + 4 * x)) s c.count[x])

/-- 20_memory R91: a host access that is not 32 bits wide at a multiple of 4 gets a bus error and has no effect on the
units. -/
def Obligations.IllegalAccessIsABusError : Prop :=
  ∀ (s : State) (u : UnitId) (off : BitVec 12) (width : Nat) (v : Word), width ≠ 32 ∨ off.toNat % 4 ≠ 0 →
    hostMove (.read u off width) s = .next { s with replies := s.replies ++ [.readError 0] } ∧
    hostMove (.write u off width v) s = .next { s with replies := s.replies ++ [.writeError] }

/-- 20_memory R93, R95: what host writes to STATUS, IRQ_EN, CT_SEL and NODE_SEL do, BUSY or not, and that writes to every other
offset but CMD are ignored. -/
def Obligations.HostWritesActAtFourRegisters : Prop :=
  ∀ (s : State) (u : UnitId) (v : Word),
    hostMove (.write u 0x00C 32 v) s =
      .next ((s.setCore u { s.core u with done := if v.getLsbD 1 then false else (s.core u).done }).reply .written) ∧
    hostMove (.write u 0x014 32 v) s =
      .next ((s.setCore u { s.core u with doneIe := v.getLsbD 0, errIe := v.getLsbD 1 }).reply .written) ∧
    hostMove (.write u 0x050 32 v) s = .next ((s.setCore u { s.core u with ctSel := v.extractLsb' 0 8 }).reply .written) ∧
    hostMove (.write u 0x078 32 v) s =
      .next ((s.setCore u { s.core u with nodeSel := v.extractLsb' 0 9 }).reply .written) ∧
    ∀ off : BitVec 12, off.toNat % 4 = 0 → off ∉ [0x008, 0x00C, 0x014, 0x050, 0x078] →
      hostMove (.write u off 32 v) s = .next (s.reply .written)

/-- 20_memory R93, R94, 10_state R51, R52, R54 to R56: no host read changes a unit. While BUSY = 1 a read of TBC, a counter,
BITSTATE, BITS or a window answers the next free value, whatever that is; so does, while BUSY = 0, a read through the code window
when the codes are not valid, through the node window when the tree is not valid, and of COUNT in IDLE, or in an ERROR with no
CLEAR since reset (93_implementation_defined U2 to U4). The form of the free value is the model's (log entry 7), and so are the reading of COUNT in
an ERROR with no CLEAR since reset (log entry 6) and the exception of NODE_SEL = 511 (log entry 11). -/
def Obligations.UnspecifiedReadsAreDraws : Prop :=
  ∀ (s : State) (u : UnitId) (off : BitVec 12) (width : Nat),
    (∃ t, hostMove (.read u off width) s = .next t ∧ t.enc = s.enc ∧ t.dec = s.dec) ∧
    (off.toNat % 4 = 0 →
      ((s.core u).busy = true →
        (off.toNat ∈ [0x018, 0x020, 0x024, 0x028, 0x02C, 0x030, 0x034, 0x038, 0x040, 0x044, 0x054, 0x058, 0x05C, 0x060, 0x064,
            0x068, 0x06C, 0x070, 0x074, 0x07C, 0x080, 0x084] ∨ (0x400 ≤ off.toNat ∧ off.toNat ≤ 0x7FC)) →
        ReadsDraw u off s) ∧
      ((s.core u).busy = false → codesValid u (s.core u).phase = false → 0x054 ≤ off.toNat → off.toNat ≤ 0x074 →
        ReadsDraw u off s) ∧
      ((s.core u).busy = false → treeValid u (s.core u).phase = false → (s.core u).nodeSel.toNat ≠ 511 →
        off.toNat ∈ [0x07C, 0x080, 0x084] → ReadsDraw u off s) ∧
      ((s.core u).busy = false → (s.core u).phase = .idle ∨ ((s.core u).phase = .error ∧ (s.core u).countInit = false) →
        0x400 ≤ off.toNat → off.toNat ≤ 0x7FC → ReadsDraw u off s))

/-- 20_memory R100, R101: a token sent joins the end of the input stream, `eos` making it EOS whatever its data; the host
takes the oldest output token, or forwards ENC's oldest output token to the end of DEC's input (70_reset R368); 00_scope R12,
20_memory R97: an access by bus address is that of the bank it falls in. The model's own are: that forwarding is one move and what
an empty output stream answers (log entry 15), and the bases and the fault outside the banks (log entry 13). -/
def Obligations.StreamsAreFifoAndBanksSitAtTheirBases : Prop :=
  (∀ (s : State) (u : UnitId),
    (∀ data, hostMove (.send u data false) s =
      .next (s.setCore u { s.core u with input := (s.core u).input ++ [.byte data] })) ∧
    (∀ data, hostMove (.send u data true) s =
      .next (s.setCore u { s.core u with input := (s.core u).input ++ [.eos] })) ∧
    (∀ t rest, (s.core u).output = t :: rest →
      hostMove (.take u) s = .next ((s.setCore u { s.core u with output := rest }).reply (.token t))) ∧
    ((s.core u).output = [] → hostMove (.take u) s = .next (s.reply .noToken))) ∧
  (∀ s : State,
    (∀ t rest, s.enc.core.output = t :: rest →
      hostMove .forward s = .next (State.reply
        { s with
          enc := { s.enc with core := { s.enc.core with output := rest } }
          dec := { s.dec with core := { s.dec.core with input := s.dec.core.input ++ [t] } } } (.token t))) ∧
    (s.enc.core.output = [] → hostMove .forward s = .next (s.reply .noToken))) ∧
  (∀ (s : State) (u : UnitId) (off : BitVec 12) (width : Nat) (v : Word),
    let base := match u with | .enc => Config.encBase | .dec => Config.decBase
    base % 4096 = 0 ∧ (Config.encBase + 4096 ≤ Config.decBase ∨ Config.decBase + 4096 ≤ Config.encBase) ∧
    hostMove (.busRead (base + off.toNat) width) s = hostMove (.read u off width) s ∧
    hostMove (.busWrite (base + off.toNat) width v) s = hostMove (.write u off width v) s) ∧
  (∀ (s : State) (addr width : Nat) (v : Word),
    addr < Config.encBase ∨ Config.encBase + 4096 ≤ addr → addr < Config.decBase ∨ Config.decBase + 4096 ≤ addr →
    hostMove (.busRead addr width) s = .fault .noBankAtAddress ∧
    hostMove (.busWrite addr width v) s = .fault .noBankAtAddress)

/-- 60_exceptions R330: `irq` is that function of STATUS and IRQ_EN; completion and error entry raise it; and the five ways it
is cleared. -/
def Obligations.IrqFollowsStatusAndEnables : Prop :=
  ∀ (c : Common),
    c.irq = ((c.done && c.doneIe) || (decide (c.phase = .error) && c.errIe)) ∧
    (∀ p, (c.complete p).irq = (c.doneIe || (decide (p = .error) && c.errIe))) ∧
    (∀ k opc, (c.errorEntry k opc).irq = ((c.done && c.doneIe) || c.errIe)) ∧
    (∀ v : Word, v.getLsbD 1 = true → (c.regWrite .status v).irq = (decide (c.phase = .error) && c.errIe)) ∧
    (∀ w, (c.accept w).irq = (decide (c.phase = .error) && c.errIe)) ∧
    (∀ p, p ≠ .error → (c.clearBody.complete p).irq = c.doneIe) ∧
    (∀ v : Word, v.getLsbD 0 = false → v.getLsbD 1 = false → (c.regWrite .irqEn v).irq = false) ∧
    (∀ u : UnitId, (State.reset.core u).irq = false)
end

