-- ==== Sys2Proof/Laws/State.lean ====
section
/-! SUPPORT. One lemma per field per update of the state, each true by the update's definition, so that no later proof
unfolds a record update. -/

namespace Sys2Proof.Machine

/-! ### consume -/

@[simp] theorem Common.consume_phase (c : Common) :
    (c.consume).phase = c.phase := by
  unfold Common.consume; cases h : c.input <;> simp_all
@[simp] theorem Common.consume_busy (c : Common) :
    (c.consume).busy = c.busy := by
  unfold Common.consume; cases h : c.input <;> simp_all
@[simp] theorem Common.consume_done (c : Common) :
    (c.consume).done = c.done := by
  unfold Common.consume; cases h : c.input <;> simp_all
@[simp] theorem Common.consume_errCause (c : Common) :
    (c.consume).errCause = c.errCause := by
  unfold Common.consume; cases h : c.input <;> simp_all
@[simp] theorem Common.consume_doneIe (c : Common) :
    (c.consume).doneIe = c.doneIe := by
  unfold Common.consume; cases h : c.input <;> simp_all
@[simp] theorem Common.consume_errIe (c : Common) :
    (c.consume).errIe = c.errIe := by
  unfold Common.consume; cases h : c.input <;> simp_all
@[simp] theorem Common.consume_calcTbc (c : Common) :
    (c.consume).calcTbc = c.calcTbc := by
  unfold Common.consume; cases h : c.input <;> simp_all
@[simp] theorem Common.consume_auxTbc (c : Common) :
    (c.consume).auxTbc = c.auxTbc := by
  unfold Common.consume; cases h : c.input <;> simp_all
@[simp] theorem Common.consume_auxValid (c : Common) :
    (c.consume).auxValid = c.auxValid := by
  unfold Common.consume; cases h : c.input <;> simp_all
@[simp] theorem Common.consume_totalBits (c : Common) :
    (c.consume).totalBits = c.totalBits := by
  unfold Common.consume; cases h : c.input <;> simp_all
@[simp] theorem Common.consume_inBytes (c : Common) :
    (c.consume).inBytes = c.inBytes + (c.input.head?.map Token.bytes).getD 0 := by
  unfold Common.consume; cases h : c.input <;> simp_all
@[simp] theorem Common.consume_outBytes (c : Common) :
    (c.consume).outBytes = c.outBytes := by
  unfold Common.consume; cases h : c.input <;> simp_all
@[simp] theorem Common.consume_ctSel (c : Common) :
    (c.consume).ctSel = c.ctSel := by
  unfold Common.consume; cases h : c.input <;> simp_all
@[simp] theorem Common.consume_nodeSel (c : Common) :
    (c.consume).nodeSel = c.nodeSel := by
  unfold Common.consume; cases h : c.input <;> simp_all
@[simp] theorem Common.consume_count (c : Common) :
    (c.consume).count = c.count := by
  unfold Common.consume; cases h : c.input <;> simp_all
@[simp] theorem Common.consume_node (c : Common) :
    (c.consume).node = c.node := by
  unfold Common.consume; cases h : c.input <;> simp_all
@[simp] theorem Common.consume_code (c : Common) :
    (c.consume).code = c.code := by
  unfold Common.consume; cases h : c.input <;> simp_all
@[simp] theorem Common.consume_cur (c : Common) :
    (c.consume).cur = c.cur := by
  unfold Common.consume; cases h : c.input <;> simp_all
@[simp] theorem Common.consume_stage (c : Common) :
    (c.consume).stage = c.stage := by
  unfold Common.consume; cases h : c.input <;> simp_all
@[simp] theorem Common.consume_begun (c : Common) :
    (c.consume).begun = c.begun := by
  unfold Common.consume; cases h : c.input <;> simp_all
@[simp] theorem Common.consume_countInit (c : Common) :
    (c.consume).countInit = c.countInit := by
  unfold Common.consume; cases h : c.input <;> simp_all
@[simp] theorem Common.consume_input (c : Common) :
    (c.consume).input = c.input.tail := by
  unfold Common.consume; cases h : c.input <;> simp_all
@[simp] theorem Common.consume_output (c : Common) :
    (c.consume).output = c.output := by
  unfold Common.consume; cases h : c.input <;> simp_all

/-! ### emit -/

@[simp] theorem Common.emit_phase (c : Common) (t : Token) : (c.emit t).phase = c.phase := rfl
@[simp] theorem Common.emit_busy (c : Common) (t : Token) : (c.emit t).busy = c.busy := rfl
@[simp] theorem Common.emit_done (c : Common) (t : Token) : (c.emit t).done = c.done := rfl
@[simp] theorem Common.emit_errCause (c : Common) (t : Token) : (c.emit t).errCause = c.errCause := rfl
@[simp] theorem Common.emit_doneIe (c : Common) (t : Token) : (c.emit t).doneIe = c.doneIe := rfl
@[simp] theorem Common.emit_errIe (c : Common) (t : Token) : (c.emit t).errIe = c.errIe := rfl
@[simp] theorem Common.emit_calcTbc (c : Common) (t : Token) : (c.emit t).calcTbc = c.calcTbc := rfl
@[simp] theorem Common.emit_auxTbc (c : Common) (t : Token) : (c.emit t).auxTbc = c.auxTbc := rfl
@[simp] theorem Common.emit_auxValid (c : Common) (t : Token) : (c.emit t).auxValid = c.auxValid := rfl
@[simp] theorem Common.emit_totalBits (c : Common) (t : Token) : (c.emit t).totalBits = c.totalBits := rfl
@[simp] theorem Common.emit_inBytes (c : Common) (t : Token) : (c.emit t).inBytes = c.inBytes := rfl
@[simp] theorem Common.emit_outBytes (c : Common) (t : Token) : (c.emit t).outBytes = c.outBytes + t.bytes := rfl
@[simp] theorem Common.emit_ctSel (c : Common) (t : Token) : (c.emit t).ctSel = c.ctSel := rfl
@[simp] theorem Common.emit_nodeSel (c : Common) (t : Token) : (c.emit t).nodeSel = c.nodeSel := rfl
@[simp] theorem Common.emit_count (c : Common) (t : Token) : (c.emit t).count = c.count := rfl
@[simp] theorem Common.emit_node (c : Common) (t : Token) : (c.emit t).node = c.node := rfl
@[simp] theorem Common.emit_code (c : Common) (t : Token) : (c.emit t).code = c.code := rfl
@[simp] theorem Common.emit_cur (c : Common) (t : Token) : (c.emit t).cur = c.cur := rfl
@[simp] theorem Common.emit_stage (c : Common) (t : Token) : (c.emit t).stage = c.stage := rfl
@[simp] theorem Common.emit_begun (c : Common) (t : Token) : (c.emit t).begun = c.begun := rfl
@[simp] theorem Common.emit_countInit (c : Common) (t : Token) : (c.emit t).countInit = c.countInit := rfl
@[simp] theorem Common.emit_input (c : Common) (t : Token) : (c.emit t).input = c.input := rfl
@[simp] theorem Common.emit_output (c : Common) (t : Token) : (c.emit t).output = c.output ++ [t] := rfl

/-! ### emitBytes -/

@[simp] theorem Common.emitBytes_phase (c : Common) (bs : List Byte) : (c.emitBytes bs).phase = c.phase := rfl
@[simp] theorem Common.emitBytes_busy (c : Common) (bs : List Byte) : (c.emitBytes bs).busy = c.busy := rfl
@[simp] theorem Common.emitBytes_done (c : Common) (bs : List Byte) : (c.emitBytes bs).done = c.done := rfl
@[simp] theorem Common.emitBytes_errCause (c : Common) (bs : List Byte) : (c.emitBytes bs).errCause = c.errCause := rfl
@[simp] theorem Common.emitBytes_doneIe (c : Common) (bs : List Byte) : (c.emitBytes bs).doneIe = c.doneIe := rfl
@[simp] theorem Common.emitBytes_errIe (c : Common) (bs : List Byte) : (c.emitBytes bs).errIe = c.errIe := rfl
@[simp] theorem Common.emitBytes_calcTbc (c : Common) (bs : List Byte) : (c.emitBytes bs).calcTbc = c.calcTbc := rfl
@[simp] theorem Common.emitBytes_auxTbc (c : Common) (bs : List Byte) : (c.emitBytes bs).auxTbc = c.auxTbc := rfl
@[simp] theorem Common.emitBytes_auxValid (c : Common) (bs : List Byte) : (c.emitBytes bs).auxValid = c.auxValid := rfl
@[simp] theorem Common.emitBytes_totalBits (c : Common) (bs : List Byte) :
    (c.emitBytes bs).totalBits = c.totalBits := rfl
@[simp] theorem Common.emitBytes_inBytes (c : Common) (bs : List Byte) : (c.emitBytes bs).inBytes = c.inBytes := rfl
@[simp] theorem Common.emitBytes_outBytes (c : Common) (bs : List Byte) :
    (c.emitBytes bs).outBytes = c.outBytes + BitVec.ofNat 64 bs.length := rfl
@[simp] theorem Common.emitBytes_ctSel (c : Common) (bs : List Byte) : (c.emitBytes bs).ctSel = c.ctSel := rfl
@[simp] theorem Common.emitBytes_nodeSel (c : Common) (bs : List Byte) : (c.emitBytes bs).nodeSel = c.nodeSel := rfl
@[simp] theorem Common.emitBytes_count (c : Common) (bs : List Byte) : (c.emitBytes bs).count = c.count := rfl
@[simp] theorem Common.emitBytes_node (c : Common) (bs : List Byte) : (c.emitBytes bs).node = c.node := rfl
@[simp] theorem Common.emitBytes_code (c : Common) (bs : List Byte) : (c.emitBytes bs).code = c.code := rfl
@[simp] theorem Common.emitBytes_cur (c : Common) (bs : List Byte) : (c.emitBytes bs).cur = c.cur := rfl
@[simp] theorem Common.emitBytes_stage (c : Common) (bs : List Byte) : (c.emitBytes bs).stage = c.stage := rfl
@[simp] theorem Common.emitBytes_begun (c : Common) (bs : List Byte) : (c.emitBytes bs).begun = c.begun := rfl
@[simp] theorem Common.emitBytes_countInit (c : Common) (bs : List Byte) :
    (c.emitBytes bs).countInit = c.countInit := rfl
@[simp] theorem Common.emitBytes_input (c : Common) (bs : List Byte) : (c.emitBytes bs).input = c.input := rfl
@[simp] theorem Common.emitBytes_output (c : Common) (bs : List Byte) :
    (c.emitBytes bs).output = c.output ++ bs.map .byte := rfl

/-! ### errorEntry -/

@[simp] theorem Common.errorEntry_phase (c : Common) (k : Cause) (opc : Byte) :
    (c.errorEntry k opc).phase = .error := rfl
@[simp] theorem Common.errorEntry_busy (c : Common) (k : Cause) (opc : Byte) : (c.errorEntry k opc).busy = false := rfl
@[simp] theorem Common.errorEntry_done (c : Common) (k : Cause) (opc : Byte) : (c.errorEntry k opc).done = c.done := rfl
@[simp] theorem Common.errorEntry_errCause (c : Common) (k : Cause) (opc : Byte) :
    (c.errorEntry k opc).errCause = if c.err then c.errCause else ⟨k.code, opc, k.kind⟩ := rfl
@[simp] theorem Common.errorEntry_doneIe (c : Common) (k : Cause) (opc : Byte) :
    (c.errorEntry k opc).doneIe = c.doneIe := rfl
@[simp] theorem Common.errorEntry_errIe (c : Common) (k : Cause) (opc : Byte) :
    (c.errorEntry k opc).errIe = c.errIe := rfl
@[simp] theorem Common.errorEntry_calcTbc (c : Common) (k : Cause) (opc : Byte) :
    (c.errorEntry k opc).calcTbc = c.calcTbc := rfl
@[simp] theorem Common.errorEntry_auxTbc (c : Common) (k : Cause) (opc : Byte) :
    (c.errorEntry k opc).auxTbc = c.auxTbc := rfl
@[simp] theorem Common.errorEntry_auxValid (c : Common) (k : Cause) (opc : Byte) :
    (c.errorEntry k opc).auxValid = c.auxValid := rfl
@[simp] theorem Common.errorEntry_totalBits (c : Common) (k : Cause) (opc : Byte) :
    (c.errorEntry k opc).totalBits = c.totalBits := rfl
@[simp] theorem Common.errorEntry_inBytes (c : Common) (k : Cause) (opc : Byte) :
    (c.errorEntry k opc).inBytes = c.inBytes := rfl
@[simp] theorem Common.errorEntry_outBytes (c : Common) (k : Cause) (opc : Byte) :
    (c.errorEntry k opc).outBytes = c.outBytes := rfl
@[simp] theorem Common.errorEntry_ctSel (c : Common) (k : Cause) (opc : Byte) :
    (c.errorEntry k opc).ctSel = c.ctSel := rfl
@[simp] theorem Common.errorEntry_nodeSel (c : Common) (k : Cause) (opc : Byte) :
    (c.errorEntry k opc).nodeSel = c.nodeSel := rfl
@[simp] theorem Common.errorEntry_count (c : Common) (k : Cause) (opc : Byte) :
    (c.errorEntry k opc).count = c.count := rfl
@[simp] theorem Common.errorEntry_node (c : Common) (k : Cause) (opc : Byte) : (c.errorEntry k opc).node = c.node := rfl
@[simp] theorem Common.errorEntry_code (c : Common) (k : Cause) (opc : Byte) : (c.errorEntry k opc).code = c.code := rfl
@[simp] theorem Common.errorEntry_cur (c : Common) (k : Cause) (opc : Byte) : (c.errorEntry k opc).cur = c.cur := rfl
@[simp] theorem Common.errorEntry_stage (c : Common) (k : Cause) (opc : Byte) :
    (c.errorEntry k opc).stage = c.stage := rfl
@[simp] theorem Common.errorEntry_begun (c : Common) (k : Cause) (opc : Byte) :
    (c.errorEntry k opc).begun = c.begun := rfl
@[simp] theorem Common.errorEntry_countInit (c : Common) (k : Cause) (opc : Byte) :
    (c.errorEntry k opc).countInit = c.countInit := rfl
@[simp] theorem Common.errorEntry_input (c : Common) (k : Cause) (opc : Byte) :
    (c.errorEntry k opc).input = c.input := rfl
@[simp] theorem Common.errorEntry_output (c : Common) (k : Cause) (opc : Byte) :
    (c.errorEntry k opc).output = c.output := rfl

/-! ### accept -/

@[simp] theorem Common.accept_phase (c : Common) (w : Word) : (c.accept w).phase = c.phase := rfl
@[simp] theorem Common.accept_busy (c : Common) (w : Word) : (c.accept w).busy = true := rfl
@[simp] theorem Common.accept_done (c : Common) (w : Word) : (c.accept w).done = false := rfl
@[simp] theorem Common.accept_errCause (c : Common) (w : Word) : (c.accept w).errCause = c.errCause := rfl
@[simp] theorem Common.accept_doneIe (c : Common) (w : Word) : (c.accept w).doneIe = c.doneIe := rfl
@[simp] theorem Common.accept_errIe (c : Common) (w : Word) : (c.accept w).errIe = c.errIe := rfl
@[simp] theorem Common.accept_calcTbc (c : Common) (w : Word) : (c.accept w).calcTbc = c.calcTbc := rfl
@[simp] theorem Common.accept_auxTbc (c : Common) (w : Word) : (c.accept w).auxTbc = c.auxTbc := rfl
@[simp] theorem Common.accept_auxValid (c : Common) (w : Word) : (c.accept w).auxValid = c.auxValid := rfl
@[simp] theorem Common.accept_totalBits (c : Common) (w : Word) : (c.accept w).totalBits = c.totalBits := rfl
@[simp] theorem Common.accept_inBytes (c : Common) (w : Word) : (c.accept w).inBytes = c.inBytes := rfl
@[simp] theorem Common.accept_outBytes (c : Common) (w : Word) : (c.accept w).outBytes = c.outBytes := rfl
@[simp] theorem Common.accept_ctSel (c : Common) (w : Word) : (c.accept w).ctSel = c.ctSel := rfl
@[simp] theorem Common.accept_nodeSel (c : Common) (w : Word) : (c.accept w).nodeSel = c.nodeSel := rfl
@[simp] theorem Common.accept_count (c : Common) (w : Word) : (c.accept w).count = c.count := rfl
@[simp] theorem Common.accept_node (c : Common) (w : Word) : (c.accept w).node = c.node := rfl
@[simp] theorem Common.accept_code (c : Common) (w : Word) : (c.accept w).code = c.code := rfl
@[simp] theorem Common.accept_cur (c : Common) (w : Word) : (c.accept w).cur = w := rfl
@[simp] theorem Common.accept_stage (c : Common) (w : Word) : (c.accept w).stage = c.stage := rfl
@[simp] theorem Common.accept_begun (c : Common) (w : Word) : (c.accept w).begun = false := rfl
@[simp] theorem Common.accept_countInit (c : Common) (w : Word) : (c.accept w).countInit = c.countInit := rfl
@[simp] theorem Common.accept_input (c : Common) (w : Word) : (c.accept w).input = c.input := rfl
@[simp] theorem Common.accept_output (c : Common) (w : Word) : (c.accept w).output = c.output := rfl

/-! ### complete -/

@[simp] theorem Common.complete_phase (c : Common) (p : Phase) : (c.complete p).phase = p := rfl
@[simp] theorem Common.complete_busy (c : Common) (p : Phase) : (c.complete p).busy = false := rfl
@[simp] theorem Common.complete_done (c : Common) (p : Phase) : (c.complete p).done = true := rfl
@[simp] theorem Common.complete_errCause (c : Common) (p : Phase) : (c.complete p).errCause = c.errCause := rfl
@[simp] theorem Common.complete_doneIe (c : Common) (p : Phase) : (c.complete p).doneIe = c.doneIe := rfl
@[simp] theorem Common.complete_errIe (c : Common) (p : Phase) : (c.complete p).errIe = c.errIe := rfl
@[simp] theorem Common.complete_calcTbc (c : Common) (p : Phase) : (c.complete p).calcTbc = c.calcTbc := rfl
@[simp] theorem Common.complete_auxTbc (c : Common) (p : Phase) : (c.complete p).auxTbc = c.auxTbc := rfl
@[simp] theorem Common.complete_auxValid (c : Common) (p : Phase) : (c.complete p).auxValid = c.auxValid := rfl
@[simp] theorem Common.complete_totalBits (c : Common) (p : Phase) : (c.complete p).totalBits = c.totalBits := rfl
@[simp] theorem Common.complete_inBytes (c : Common) (p : Phase) : (c.complete p).inBytes = c.inBytes := rfl
@[simp] theorem Common.complete_outBytes (c : Common) (p : Phase) : (c.complete p).outBytes = c.outBytes := rfl
@[simp] theorem Common.complete_ctSel (c : Common) (p : Phase) : (c.complete p).ctSel = c.ctSel := rfl
@[simp] theorem Common.complete_nodeSel (c : Common) (p : Phase) : (c.complete p).nodeSel = c.nodeSel := rfl
@[simp] theorem Common.complete_count (c : Common) (p : Phase) : (c.complete p).count = c.count := rfl
@[simp] theorem Common.complete_node (c : Common) (p : Phase) : (c.complete p).node = c.node := rfl
@[simp] theorem Common.complete_code (c : Common) (p : Phase) : (c.complete p).code = c.code := rfl
@[simp] theorem Common.complete_cur (c : Common) (p : Phase) : (c.complete p).cur = c.cur := rfl
@[simp] theorem Common.complete_stage (c : Common) (p : Phase) : (c.complete p).stage = c.stage := rfl
@[simp] theorem Common.complete_begun (c : Common) (p : Phase) : (c.complete p).begun = c.begun := rfl
@[simp] theorem Common.complete_countInit (c : Common) (p : Phase) : (c.complete p).countInit = c.countInit := rfl
@[simp] theorem Common.complete_input (c : Common) (p : Phase) : (c.complete p).input = c.input := rfl
@[simp] theorem Common.complete_output (c : Common) (p : Phase) : (c.complete p).output = c.output := rfl

/-! ### goOn -/

@[simp] theorem Common.goOn_phase (c : Common) : (c.goOn).phase = c.phase := rfl
@[simp] theorem Common.goOn_busy (c : Common) : (c.goOn).busy = c.busy := rfl
@[simp] theorem Common.goOn_done (c : Common) : (c.goOn).done = c.done := rfl
@[simp] theorem Common.goOn_errCause (c : Common) : (c.goOn).errCause = c.errCause := rfl
@[simp] theorem Common.goOn_doneIe (c : Common) : (c.goOn).doneIe = c.doneIe := rfl
@[simp] theorem Common.goOn_errIe (c : Common) : (c.goOn).errIe = c.errIe := rfl
@[simp] theorem Common.goOn_calcTbc (c : Common) : (c.goOn).calcTbc = c.calcTbc := rfl
@[simp] theorem Common.goOn_auxTbc (c : Common) : (c.goOn).auxTbc = c.auxTbc := rfl
@[simp] theorem Common.goOn_auxValid (c : Common) : (c.goOn).auxValid = c.auxValid := rfl
@[simp] theorem Common.goOn_totalBits (c : Common) : (c.goOn).totalBits = c.totalBits := rfl
@[simp] theorem Common.goOn_inBytes (c : Common) : (c.goOn).inBytes = c.inBytes := rfl
@[simp] theorem Common.goOn_outBytes (c : Common) : (c.goOn).outBytes = c.outBytes := rfl
@[simp] theorem Common.goOn_ctSel (c : Common) : (c.goOn).ctSel = c.ctSel := rfl
@[simp] theorem Common.goOn_nodeSel (c : Common) : (c.goOn).nodeSel = c.nodeSel := rfl
@[simp] theorem Common.goOn_count (c : Common) : (c.goOn).count = c.count := rfl
@[simp] theorem Common.goOn_node (c : Common) : (c.goOn).node = c.node := rfl
@[simp] theorem Common.goOn_code (c : Common) : (c.goOn).code = c.code := rfl
@[simp] theorem Common.goOn_cur (c : Common) : (c.goOn).cur = c.cur := rfl
@[simp] theorem Common.goOn_stage (c : Common) : (c.goOn).stage = c.stage := rfl
@[simp] theorem Common.goOn_begun (c : Common) : (c.goOn).begun = true := rfl
@[simp] theorem Common.goOn_countInit (c : Common) : (c.goOn).countInit = c.countInit := rfl
@[simp] theorem Common.goOn_input (c : Common) : (c.goOn).input = c.input := rfl
@[simp] theorem Common.goOn_output (c : Common) : (c.goOn).output = c.output := rfl

/-! ### handOver -/

@[simp] theorem Common.handOver_phase (c : Common) (p : Phase) (st : Nat) : (c.handOver p st).phase = p := rfl
@[simp] theorem Common.handOver_busy (c : Common) (p : Phase) (st : Nat) : (c.handOver p st).busy = c.busy := rfl
@[simp] theorem Common.handOver_done (c : Common) (p : Phase) (st : Nat) : (c.handOver p st).done = c.done := rfl
@[simp] theorem Common.handOver_errCause (c : Common) (p : Phase) (st : Nat) :
    (c.handOver p st).errCause = c.errCause := rfl
@[simp] theorem Common.handOver_doneIe (c : Common) (p : Phase) (st : Nat) : (c.handOver p st).doneIe = c.doneIe := rfl
@[simp] theorem Common.handOver_errIe (c : Common) (p : Phase) (st : Nat) : (c.handOver p st).errIe = c.errIe := rfl
@[simp] theorem Common.handOver_calcTbc (c : Common) (p : Phase) (st : Nat) :
    (c.handOver p st).calcTbc = c.calcTbc := rfl
@[simp] theorem Common.handOver_auxTbc (c : Common) (p : Phase) (st : Nat) : (c.handOver p st).auxTbc = c.auxTbc := rfl
@[simp] theorem Common.handOver_auxValid (c : Common) (p : Phase) (st : Nat) :
    (c.handOver p st).auxValid = c.auxValid := rfl
@[simp] theorem Common.handOver_totalBits (c : Common) (p : Phase) (st : Nat) :
    (c.handOver p st).totalBits = c.totalBits := rfl
@[simp] theorem Common.handOver_inBytes (c : Common) (p : Phase) (st : Nat) :
    (c.handOver p st).inBytes = c.inBytes := rfl
@[simp] theorem Common.handOver_outBytes (c : Common) (p : Phase) (st : Nat) :
    (c.handOver p st).outBytes = c.outBytes := rfl
@[simp] theorem Common.handOver_ctSel (c : Common) (p : Phase) (st : Nat) : (c.handOver p st).ctSel = c.ctSel := rfl
@[simp] theorem Common.handOver_nodeSel (c : Common) (p : Phase) (st : Nat) :
    (c.handOver p st).nodeSel = c.nodeSel := rfl
@[simp] theorem Common.handOver_count (c : Common) (p : Phase) (st : Nat) : (c.handOver p st).count = c.count := rfl
@[simp] theorem Common.handOver_node (c : Common) (p : Phase) (st : Nat) : (c.handOver p st).node = c.node := rfl
@[simp] theorem Common.handOver_code (c : Common) (p : Phase) (st : Nat) : (c.handOver p st).code = c.code := rfl
@[simp] theorem Common.handOver_cur (c : Common) (p : Phase) (st : Nat) : (c.handOver p st).cur = c.cur := rfl
@[simp] theorem Common.handOver_stage (c : Common) (p : Phase) (st : Nat) : (c.handOver p st).stage = st := rfl
@[simp] theorem Common.handOver_begun (c : Common) (p : Phase) (st : Nat) : (c.handOver p st).begun = c.begun := rfl
@[simp] theorem Common.handOver_countInit (c : Common) (p : Phase) (st : Nat) :
    (c.handOver p st).countInit = c.countInit := rfl
@[simp] theorem Common.handOver_input (c : Common) (p : Phase) (st : Nat) : (c.handOver p st).input = c.input := rfl
@[simp] theorem Common.handOver_output (c : Common) (p : Phase) (st : Nat) : (c.handOver p st).output = c.output := rfl

/-! ### setCount -/

@[simp] theorem Common.setCount_phase (c : Common) (s : Symbol) (v : BitVec 32) :
    (c.setCount s v).phase = c.phase := rfl
@[simp] theorem Common.setCount_busy (c : Common) (s : Symbol) (v : BitVec 32) : (c.setCount s v).busy = c.busy := rfl
@[simp] theorem Common.setCount_done (c : Common) (s : Symbol) (v : BitVec 32) : (c.setCount s v).done = c.done := rfl
@[simp] theorem Common.setCount_errCause (c : Common) (s : Symbol) (v : BitVec 32) :
    (c.setCount s v).errCause = c.errCause := rfl
@[simp] theorem Common.setCount_doneIe (c : Common) (s : Symbol) (v : BitVec 32) :
    (c.setCount s v).doneIe = c.doneIe := rfl
@[simp] theorem Common.setCount_errIe (c : Common) (s : Symbol) (v : BitVec 32) :
    (c.setCount s v).errIe = c.errIe := rfl
@[simp] theorem Common.setCount_calcTbc (c : Common) (s : Symbol) (v : BitVec 32) :
    (c.setCount s v).calcTbc = c.calcTbc := rfl
@[simp] theorem Common.setCount_auxTbc (c : Common) (s : Symbol) (v : BitVec 32) :
    (c.setCount s v).auxTbc = c.auxTbc := rfl
@[simp] theorem Common.setCount_auxValid (c : Common) (s : Symbol) (v : BitVec 32) :
    (c.setCount s v).auxValid = c.auxValid := rfl
@[simp] theorem Common.setCount_totalBits (c : Common) (s : Symbol) (v : BitVec 32) :
    (c.setCount s v).totalBits = c.totalBits := rfl
@[simp] theorem Common.setCount_inBytes (c : Common) (s : Symbol) (v : BitVec 32) :
    (c.setCount s v).inBytes = c.inBytes := rfl
@[simp] theorem Common.setCount_outBytes (c : Common) (s : Symbol) (v : BitVec 32) :
    (c.setCount s v).outBytes = c.outBytes := rfl
@[simp] theorem Common.setCount_ctSel (c : Common) (s : Symbol) (v : BitVec 32) :
    (c.setCount s v).ctSel = c.ctSel := rfl
@[simp] theorem Common.setCount_nodeSel (c : Common) (s : Symbol) (v : BitVec 32) :
    (c.setCount s v).nodeSel = c.nodeSel := rfl
@[simp] theorem Common.setCount_count (c : Common) (s : Symbol) (v : BitVec 32) :
    (c.setCount s v).count = c.count.set s.toNat v := rfl
@[simp] theorem Common.setCount_node (c : Common) (s : Symbol) (v : BitVec 32) : (c.setCount s v).node = c.node := rfl
@[simp] theorem Common.setCount_code (c : Common) (s : Symbol) (v : BitVec 32) : (c.setCount s v).code = c.code := rfl
@[simp] theorem Common.setCount_cur (c : Common) (s : Symbol) (v : BitVec 32) : (c.setCount s v).cur = c.cur := rfl
@[simp] theorem Common.setCount_stage (c : Common) (s : Symbol) (v : BitVec 32) :
    (c.setCount s v).stage = c.stage := rfl
@[simp] theorem Common.setCount_begun (c : Common) (s : Symbol) (v : BitVec 32) :
    (c.setCount s v).begun = c.begun := rfl
@[simp] theorem Common.setCount_countInit (c : Common) (s : Symbol) (v : BitVec 32) :
    (c.setCount s v).countInit = c.countInit := rfl
@[simp] theorem Common.setCount_input (c : Common) (s : Symbol) (v : BitVec 32) :
    (c.setCount s v).input = c.input := rfl
@[simp] theorem Common.setCount_output (c : Common) (s : Symbol) (v : BitVec 32) :
    (c.setCount s v).output = c.output := rfl

/-! ### clearBody -/

@[simp] theorem Common.clearBody_phase (c : Common) : (c.clearBody).phase = c.phase := rfl
@[simp] theorem Common.clearBody_busy (c : Common) : (c.clearBody).busy = c.busy := rfl
@[simp] theorem Common.clearBody_done (c : Common) : (c.clearBody).done = c.done := rfl
@[simp] theorem Common.clearBody_errCause (c : Common) : (c.clearBody).errCause = ⟨0, 0, 0⟩ := rfl
@[simp] theorem Common.clearBody_doneIe (c : Common) : (c.clearBody).doneIe = c.doneIe := rfl
@[simp] theorem Common.clearBody_errIe (c : Common) : (c.clearBody).errIe = c.errIe := rfl
@[simp] theorem Common.clearBody_calcTbc (c : Common) : (c.clearBody).calcTbc = 0 := rfl
@[simp] theorem Common.clearBody_auxTbc (c : Common) : (c.clearBody).auxTbc = 0 := rfl
@[simp] theorem Common.clearBody_auxValid (c : Common) : (c.clearBody).auxValid = false := rfl
@[simp] theorem Common.clearBody_totalBits (c : Common) : (c.clearBody).totalBits = 0 := rfl
@[simp] theorem Common.clearBody_inBytes (c : Common) : (c.clearBody).inBytes = 0 := rfl
@[simp] theorem Common.clearBody_outBytes (c : Common) : (c.clearBody).outBytes = 0 := rfl
@[simp] theorem Common.clearBody_ctSel (c : Common) : (c.clearBody).ctSel = c.ctSel := rfl
@[simp] theorem Common.clearBody_nodeSel (c : Common) : (c.clearBody).nodeSel = c.nodeSel := rfl
@[simp] theorem Common.clearBody_count (c : Common) : (c.clearBody).count = Vector.replicate 256 0 := rfl
@[simp] theorem Common.clearBody_node (c : Common) : (c.clearBody).node = c.node := rfl
@[simp] theorem Common.clearBody_code (c : Common) : (c.clearBody).code = c.code := rfl
@[simp] theorem Common.clearBody_cur (c : Common) : (c.clearBody).cur = c.cur := rfl
@[simp] theorem Common.clearBody_stage (c : Common) : (c.clearBody).stage = c.stage := rfl
@[simp] theorem Common.clearBody_begun (c : Common) : (c.clearBody).begun = c.begun := rfl
@[simp] theorem Common.clearBody_countInit (c : Common) : (c.clearBody).countInit = true := rfl
@[simp] theorem Common.clearBody_input (c : Common) : (c.clearBody).input = c.input := rfl
@[simp] theorem Common.clearBody_output (c : Common) : (c.clearBody).output = c.output := rfl

/-! ### buildTree -/

@[simp] theorem Common.buildTree_phase (c : Common) : (c.buildTree).phase = c.phase := rfl
@[simp] theorem Common.buildTree_busy (c : Common) : (c.buildTree).busy = c.busy := rfl
@[simp] theorem Common.buildTree_done (c : Common) : (c.buildTree).done = c.done := rfl
@[simp] theorem Common.buildTree_errCause (c : Common) : (c.buildTree).errCause = c.errCause := rfl
@[simp] theorem Common.buildTree_doneIe (c : Common) : (c.buildTree).doneIe = c.doneIe := rfl
@[simp] theorem Common.buildTree_errIe (c : Common) : (c.buildTree).errIe = c.errIe := rfl
@[simp] theorem Common.buildTree_calcTbc (c : Common) : (c.buildTree).calcTbc = c.calcTbc := rfl
@[simp] theorem Common.buildTree_auxTbc (c : Common) : (c.buildTree).auxTbc = c.auxTbc := rfl
@[simp] theorem Common.buildTree_auxValid (c : Common) : (c.buildTree).auxValid = c.auxValid := rfl
@[simp] theorem Common.buildTree_totalBits (c : Common) : (c.buildTree).totalBits = c.totalBits := rfl
@[simp] theorem Common.buildTree_inBytes (c : Common) : (c.buildTree).inBytes = c.inBytes := rfl
@[simp] theorem Common.buildTree_outBytes (c : Common) : (c.buildTree).outBytes = c.outBytes := rfl
@[simp] theorem Common.buildTree_ctSel (c : Common) : (c.buildTree).ctSel = c.ctSel := rfl
@[simp] theorem Common.buildTree_nodeSel (c : Common) : (c.buildTree).nodeSel = c.nodeSel := rfl
@[simp] theorem Common.buildTree_count (c : Common) : (c.buildTree).count = c.count := rfl
@[simp] theorem Common.buildTree_node (c : Common) : (c.buildTree).node = treeBuild c.count := rfl
@[simp] theorem Common.buildTree_code (c : Common) : (c.buildTree).code = c.code := rfl
@[simp] theorem Common.buildTree_cur (c : Common) : (c.buildTree).cur = c.cur := rfl
@[simp] theorem Common.buildTree_stage (c : Common) : (c.buildTree).stage = c.stage := rfl
@[simp] theorem Common.buildTree_begun (c : Common) : (c.buildTree).begun = c.begun := rfl
@[simp] theorem Common.buildTree_countInit (c : Common) : (c.buildTree).countInit = c.countInit := rfl
@[simp] theorem Common.buildTree_input (c : Common) : (c.buildTree).input = c.input := rfl
@[simp] theorem Common.buildTree_output (c : Common) : (c.buildTree).output = c.output := rfl

/-! ### genCodes -/

@[simp] theorem Common.genCodes_phase (c : Common) : (c.genCodes).phase = c.phase := rfl
@[simp] theorem Common.genCodes_busy (c : Common) : (c.genCodes).busy = c.busy := rfl
@[simp] theorem Common.genCodes_done (c : Common) : (c.genCodes).done = c.done := rfl
@[simp] theorem Common.genCodes_errCause (c : Common) : (c.genCodes).errCause = c.errCause := rfl
@[simp] theorem Common.genCodes_doneIe (c : Common) : (c.genCodes).doneIe = c.doneIe := rfl
@[simp] theorem Common.genCodes_errIe (c : Common) : (c.genCodes).errIe = c.errIe := rfl
@[simp] theorem Common.genCodes_calcTbc (c : Common) :
    (c.genCodes).calcTbc = tbcOf (totalBitsOf c.count (codeGen c.node)) := rfl
@[simp] theorem Common.genCodes_auxTbc (c : Common) : (c.genCodes).auxTbc = c.auxTbc := rfl
@[simp] theorem Common.genCodes_auxValid (c : Common) : (c.genCodes).auxValid = c.auxValid := rfl
@[simp] theorem Common.genCodes_totalBits (c : Common) :
    (c.genCodes).totalBits = totalBitsOf c.count (codeGen c.node) := rfl
@[simp] theorem Common.genCodes_inBytes (c : Common) : (c.genCodes).inBytes = c.inBytes := rfl
@[simp] theorem Common.genCodes_outBytes (c : Common) : (c.genCodes).outBytes = c.outBytes := rfl
@[simp] theorem Common.genCodes_ctSel (c : Common) : (c.genCodes).ctSel = c.ctSel := rfl
@[simp] theorem Common.genCodes_nodeSel (c : Common) : (c.genCodes).nodeSel = c.nodeSel := rfl
@[simp] theorem Common.genCodes_count (c : Common) : (c.genCodes).count = c.count := rfl
@[simp] theorem Common.genCodes_node (c : Common) : (c.genCodes).node = c.node := rfl
@[simp] theorem Common.genCodes_code (c : Common) : (c.genCodes).code = codeGen c.node := rfl
@[simp] theorem Common.genCodes_cur (c : Common) : (c.genCodes).cur = c.cur := rfl
@[simp] theorem Common.genCodes_stage (c : Common) : (c.genCodes).stage = c.stage := rfl
@[simp] theorem Common.genCodes_begun (c : Common) : (c.genCodes).begun = c.begun := rfl
@[simp] theorem Common.genCodes_countInit (c : Common) : (c.genCodes).countInit = c.countInit := rfl
@[simp] theorem Common.genCodes_input (c : Common) : (c.genCodes).input = c.input := rfl
@[simp] theorem Common.genCodes_output (c : Common) : (c.genCodes).output = c.output := rfl

/-! ### receive -/

@[simp] theorem Common.receive_phase (c : Common) (t : Token) : (c.receive t).phase = c.phase := rfl
@[simp] theorem Common.receive_busy (c : Common) (t : Token) : (c.receive t).busy = c.busy := rfl
@[simp] theorem Common.receive_done (c : Common) (t : Token) : (c.receive t).done = c.done := rfl
@[simp] theorem Common.receive_errCause (c : Common) (t : Token) : (c.receive t).errCause = c.errCause := rfl
@[simp] theorem Common.receive_doneIe (c : Common) (t : Token) : (c.receive t).doneIe = c.doneIe := rfl
@[simp] theorem Common.receive_errIe (c : Common) (t : Token) : (c.receive t).errIe = c.errIe := rfl
@[simp] theorem Common.receive_calcTbc (c : Common) (t : Token) : (c.receive t).calcTbc = c.calcTbc := rfl
@[simp] theorem Common.receive_auxTbc (c : Common) (t : Token) : (c.receive t).auxTbc = c.auxTbc := rfl
@[simp] theorem Common.receive_auxValid (c : Common) (t : Token) : (c.receive t).auxValid = c.auxValid := rfl
@[simp] theorem Common.receive_totalBits (c : Common) (t : Token) : (c.receive t).totalBits = c.totalBits := rfl
@[simp] theorem Common.receive_inBytes (c : Common) (t : Token) : (c.receive t).inBytes = c.inBytes := rfl
@[simp] theorem Common.receive_outBytes (c : Common) (t : Token) : (c.receive t).outBytes = c.outBytes := rfl
@[simp] theorem Common.receive_ctSel (c : Common) (t : Token) : (c.receive t).ctSel = c.ctSel := rfl
@[simp] theorem Common.receive_nodeSel (c : Common) (t : Token) : (c.receive t).nodeSel = c.nodeSel := rfl
@[simp] theorem Common.receive_count (c : Common) (t : Token) : (c.receive t).count = c.count := rfl
@[simp] theorem Common.receive_node (c : Common) (t : Token) : (c.receive t).node = c.node := rfl
@[simp] theorem Common.receive_code (c : Common) (t : Token) : (c.receive t).code = c.code := rfl
@[simp] theorem Common.receive_cur (c : Common) (t : Token) : (c.receive t).cur = c.cur := rfl
@[simp] theorem Common.receive_stage (c : Common) (t : Token) : (c.receive t).stage = c.stage := rfl
@[simp] theorem Common.receive_begun (c : Common) (t : Token) : (c.receive t).begun = c.begun := rfl
@[simp] theorem Common.receive_countInit (c : Common) (t : Token) : (c.receive t).countInit = c.countInit := rfl
@[simp] theorem Common.receive_input (c : Common) (t : Token) : (c.receive t).input = c.input ++ [t] := rfl
@[simp] theorem Common.receive_output (c : Common) (t : Token) : (c.receive t).output = c.output := rfl

/-! ### The units -/

@[simp] theorem Enc.withCore_core (e : Enc) (c : Common) : (e.withCore c).core = c := rfl
@[simp] theorem Enc.withCore_pkAcc (e : Enc) (c : Common) : (e.withCore c).pkAcc = e.pkAcc := rfl
@[simp] theorem Enc.withCore_pkPend (e : Enc) (c : Common) : (e.withCore c).pkPend = e.pkPend := rfl
@[simp] theorem Enc.withCore_packedBits (e : Enc) (c : Common) : (e.withCore c).packedBits = e.packedBits := rfl

/-! ### raise in ENC -/

@[simp] theorem Enc.raise_core (e : Enc) (k : Cause) : (e.raise k).core = e.core.raise k := rfl
@[simp] theorem Enc.raise_pkAcc (e : Enc) (k : Cause) : (e.raise k).pkAcc = e.pkAcc := rfl
@[simp] theorem Enc.raise_pkPend (e : Enc) (k : Cause) : (e.raise k).pkPend = e.pkPend := rfl
@[simp] theorem Enc.raise_packedBits (e : Enc) (k : Cause) : (e.raise k).packedBits = e.packedBits := rfl

/-! ### the common part of DEC -/

@[simp] theorem Dec.withCore_core (d : Dec) (c : Common) : (d.withCore c).core = c := rfl
@[simp] theorem Dec.withCore_hdrIdx (d : Dec) (c : Common) : (d.withCore c).hdrIdx = d.hdrIdx := rfl
@[simp] theorem Dec.withCore_brBuf (d : Dec) (c : Common) : (d.withCore c).brBuf = d.brBuf := rfl
@[simp] theorem Dec.withCore_brCnt (d : Dec) (c : Common) : (d.withCore c).brCnt = d.brCnt := rfl
@[simp] theorem Dec.withCore_brLast (d : Dec) (c : Common) : (d.withCore c).brLast = d.brLast := rfl
@[simp] theorem Dec.withCore_walkNode (d : Dec) (c : Common) : (d.withCore c).walkNode = d.walkNode := rfl
@[simp] theorem Dec.withCore_consumedBits (d : Dec) (c : Common) : (d.withCore c).consumedBits = d.consumedBits := rfl
@[simp] theorem Dec.withCore_eop (d : Dec) (c : Common) : (d.withCore c).eop = d.eop := rfl

/-! ### raise in DEC -/

@[simp] theorem Dec.raise_core (d : Dec) (k : Cause) : (d.raise k).core = d.core.raise k := rfl
@[simp] theorem Dec.raise_hdrIdx (d : Dec) (k : Cause) : (d.raise k).hdrIdx = d.hdrIdx := rfl
@[simp] theorem Dec.raise_brBuf (d : Dec) (k : Cause) : (d.raise k).brBuf = d.brBuf := rfl
@[simp] theorem Dec.raise_brCnt (d : Dec) (k : Cause) : (d.raise k).brCnt = d.brCnt := rfl
@[simp] theorem Dec.raise_brLast (d : Dec) (k : Cause) : (d.raise k).brLast = d.brLast := rfl
@[simp] theorem Dec.raise_walkNode (d : Dec) (k : Cause) : (d.raise k).walkNode = d.walkNode := rfl
@[simp] theorem Dec.raise_consumedBits (d : Dec) (k : Cause) : (d.raise k).consumedBits = d.consumedBits := rfl
@[simp] theorem Dec.raise_eop (d : Dec) (k : Cause) : (d.raise k).eop = d.eop := rfl

/-! ### rewind -/

@[simp] theorem Dec.rewind_core (d : Dec) : (d.rewind).core = d.core := rfl
@[simp] theorem Dec.rewind_hdrIdx (d : Dec) : (d.rewind).hdrIdx = d.hdrIdx := rfl
@[simp] theorem Dec.rewind_brBuf (d : Dec) : (d.rewind).brBuf = 0 := rfl
@[simp] theorem Dec.rewind_brCnt (d : Dec) : (d.rewind).brCnt = 0 := rfl
@[simp] theorem Dec.rewind_brLast (d : Dec) : (d.rewind).brLast = false := rfl
@[simp] theorem Dec.rewind_walkNode (d : Dec) : (d.rewind).walkNode = rootNode := rfl
@[simp] theorem Dec.rewind_consumedBits (d : Dec) : (d.rewind).consumedBits = d.consumedBits := rfl
@[simp] theorem Dec.rewind_eop (d : Dec) : (d.rewind).eop = d.eop := rfl

/-! ### endPayload -/

@[simp] theorem Dec.endPayload_core (d : Dec) : (d.endPayload).core = d.core.emit .eos := rfl
@[simp] theorem Dec.endPayload_hdrIdx (d : Dec) : (d.endPayload).hdrIdx = d.hdrIdx := rfl
@[simp] theorem Dec.endPayload_brBuf (d : Dec) : (d.endPayload).brBuf = d.brBuf := rfl
@[simp] theorem Dec.endPayload_brCnt (d : Dec) : (d.endPayload).brCnt = d.brCnt := rfl
@[simp] theorem Dec.endPayload_brLast (d : Dec) : (d.endPayload).brLast = d.brLast := rfl
@[simp] theorem Dec.endPayload_walkNode (d : Dec) : (d.endPayload).walkNode = d.walkNode := rfl
@[simp] theorem Dec.endPayload_consumedBits (d : Dec) : (d.endPayload).consumedBits = d.consumedBits := rfl
@[simp] theorem Dec.endPayload_eop (d : Dec) : (d.endPayload).eop = true := rfl

/-! ### reply -/

@[simp] theorem State.reply_enc (s : State) (r : Reply) : (s.reply r).enc = s.enc := rfl
@[simp] theorem State.reply_dec (s : State) (r : Reply) : (s.reply r).dec = s.dec := rfl
@[simp] theorem State.reply_agenda (s : State) (r : Reply) : (s.reply r).agenda = s.agenda := rfl
@[simp] theorem State.reply_turn (s : State) (r : Reply) : (s.reply r).turn = s.turn := rfl
@[simp] theorem State.reply_replies (s : State) (r : Reply) : (s.reply r).replies = s.replies ++ [r] := rfl
@[simp] theorem State.reply_draws (s : State) (r : Reply) : (s.reply r).draws = s.draws := rfl

/-! ### setCore -/

@[simp] theorem State.setCore_enc_enc (s : State) (c : Common) : (s.setCore .enc c).enc = s.enc.withCore c := rfl
@[simp] theorem State.setCore_enc_dec (s : State) (c : Common) : (s.setCore .enc c).dec = s.dec := rfl
@[simp] theorem State.setCore_enc_agenda (s : State) (c : Common) : (s.setCore .enc c).agenda = s.agenda := rfl
@[simp] theorem State.setCore_enc_turn (s : State) (c : Common) : (s.setCore .enc c).turn = s.turn := rfl
@[simp] theorem State.setCore_enc_replies (s : State) (c : Common) : (s.setCore .enc c).replies = s.replies := rfl
@[simp] theorem State.setCore_enc_draws (s : State) (c : Common) : (s.setCore .enc c).draws = s.draws := rfl

/-! ### setCore in DEC -/

@[simp] theorem State.setCore_dec_enc (s : State) (c : Common) : (s.setCore .dec c).enc = s.enc := rfl
@[simp] theorem State.setCore_dec_dec (s : State) (c : Common) : (s.setCore .dec c).dec = s.dec.withCore c := rfl
@[simp] theorem State.setCore_dec_agenda (s : State) (c : Common) : (s.setCore .dec c).agenda = s.agenda := rfl
@[simp] theorem State.setCore_dec_turn (s : State) (c : Common) : (s.setCore .dec c).turn = s.turn := rfl
@[simp] theorem State.setCore_dec_replies (s : State) (c : Common) : (s.setCore .dec c).replies = s.replies := rfl
@[simp] theorem State.setCore_dec_draws (s : State) (c : Common) : (s.setCore .dec c).draws = s.draws := rfl

/-! ### resetUnits -/

@[simp] theorem resetUnits_enc (s : State) : (resetUnits s).enc = Enc.reset := rfl
@[simp] theorem resetUnits_dec (s : State) : (resetUnits s).dec = Dec.reset := rfl
@[simp] theorem resetUnits_agenda (s : State) : (resetUnits s).agenda = s.agenda := rfl
@[simp] theorem resetUnits_turn (s : State) : (resetUnits s).turn = s.turn := rfl
@[simp] theorem resetUnits_replies (s : State) : (resetUnits s).replies = s.replies := rfl
@[simp] theorem resetUnits_draws (s : State) : (resetUnits s).draws = s.draws := rfl

/-! ### Other views -/

@[simp] theorem State.core_enc (s : State) : s.core .enc = s.enc.core := rfl
@[simp] theorem State.core_dec (s : State) : s.core .dec = s.dec.core := rfl
@[simp] theorem Enc.withCore_self (e : Enc) : e.withCore e.core = e := rfl
@[simp] theorem Dec.withCore_self (d : Dec) : d.withCore d.core = d := rfl
@[simp] theorem Enc.withCore_withCore (e : Enc) (c c' : Common) : (e.withCore c).withCore c' = e.withCore c' := rfl
@[simp] theorem Dec.withCore_withCore (d : Dec) (c c' : Common) : (d.withCore c).withCore c' = d.withCore c' := rfl

/-- Setting a unit's common part and reading it back. -/
@[simp] theorem State.core_setCore (s : State) (u : UnitId) (c : Common) : (s.setCore u c).core u = c := by
  cases u <;> rfl

/-- Setting one unit's common part leaves the other's. -/
theorem State.core_setCore_other (s : State) (u : UnitId) (c : Common) :
    (s.setCore u c).core (otherUnit u) = s.core (otherUnit u) := by
  cases u <;> rfl

/-- ERR is PHASE = ERROR (10_state R39). -/
@[simp] theorem Common.err_iff (c : Common) : c.err = true ↔ c.phase = .error := by simp [Common.err]

/-- ERR is 0 outside ERROR (10_state R39). -/
theorem Common.err_false_iff (c : Common) : c.err = false ↔ c.phase ≠ .error := by simp [Common.err]

end Sys2Proof.Machine
end

