-- ==== Sys2Proof/Laws/Ops.lean ====
section
/-! SUPPORT. For each shared operation, one lemma that says once everything it can do; later proofs cite these and do not
unfold the operations. -/

namespace Sys2Proof.Machine

/-! ### Streams (00_scope R16, 20_memory R102, R106) -/

theorem Common.peek_none_iff (c : Common) (k : Nat) : c.peek k = none ↔ c.input.length ≤ k := by
  simp [Common.peek]

theorem Common.peek_zero_nil (c : Common) (h : c.input = []) : c.peek 0 = none := by simp [Common.peek, h]

theorem Common.peek_zero_cons (c : Common) (t : Token) (rest : List Token) (h : c.input = t :: rest) :
    c.peek 0 = some t := by simp [Common.peek, h]

theorem Common.peek_zero_some (c : Common) (t : Token) (h : c.peek 0 = some t) : ∃ rest, c.input = t :: rest := by
  cases hi : c.input with
  | nil => simp [Common.peek, hi] at h
  | cons a rest => exact ⟨rest, by simpa [Common.peek, hi] using h⟩

theorem Common.consume_cons (c : Common) (t : Token) (rest : List Token) (h : c.input = t :: rest) :
    c.consume = { c with input := rest, inBytes := c.inBytes + t.bytes } := by simp [Common.consume, h]

/-- EOS is not counted (10_state R45). -/
theorem Common.consume_eos (c : Common) (rest : List Token) (h : c.input = .eos :: rest) :
    c.consume = { c with input := rest } := by simp [Common.consume, h, Token.bytes]

/-- A byte is counted once (10_state R45). -/
theorem Common.consume_byte (c : Common) (b : Byte) (rest : List Token) (h : c.input = .byte b :: rest) :
    c.consume = { c with input := rest, inBytes := c.inBytes + 1 } := by simp [Common.consume, h, Token.bytes]

/-! ### Errors and command words (60_exceptions R320, 40_command_model R150 to R153) -/

/-- Error entry written out in PHASE. -/
theorem Common.errorEntry_eq (c : Common) (k : Cause) (opc : Byte) :
    c.errorEntry k opc =
      { c with errCause := if c.phase = .error then c.errCause else ⟨k.code, opc, k.kind⟩, phase := .error, busy := false } := by
  by_cases h : c.phase = .error <;> simp [Common.errorEntry, Common.err, h]

/-- Error entry in a unit is `withError` of Safety. -/
theorem setCore_errorEntry (s : State) (u : UnitId) (k : Cause) (opc : Byte) :
    s.setCore u ((s.core u).errorEntry k opc) = withError u k opc s := by
  rw [Common.errorEntry_eq]; rfl

/-- A raise in ENC as a next state. -/
theorem runEnc_raise (s : State) (k : Cause) :
    runEnc s (.raised (s.enc.raise k)) = .next (withError .enc k (s.enc.core.cur.extractLsb' 0 8) s) :=
  congrArg Host.Outcome.next (setCore_errorEntry s .enc k _)

/-- A raise in DEC as a next state. -/
theorem runDec_raise (s : State) (k : Cause) :
    runDec s (.raised (s.dec.raise k)) = .next (withError .dec k (s.dec.core.cur.extractLsb' 0 8) s) :=
  congrArg Host.Outcome.next (setCore_errorEntry s .dec k _)

/-- An exact next state is one up to the hidden sequencing state. -/
theorem EndsIn.of_eq (u : UnitId) (o : Host.Outcome State Fault Refusal) (t : State) (h : o = .next t) : EndsIn u o t := by
  cases u
  · exact ⟨t.enc.core.cur, t.enc.core.stage, t.enc.core.begun, 0, h⟩
  · exact ⟨t.dec.core.cur, t.dec.core.stage, t.dec.core.begun, t.dec.hdrIdx, h⟩

theorem Common.errorEntry_first (c : Common) (k : Cause) (opc : Byte) (h : c.phase ≠ .error) :
    c.errorEntry k opc = { c with errCause := ⟨k.code, opc, k.kind⟩, phase := .error, busy := false } := by
  simp [Common.errorEntry, Common.err, h]

theorem Common.errorEntry_again (c : Common) (k : Cause) (opc : Byte) (h : c.phase = .error) :
    c.errorEntry k opc = { c with phase := .error, busy := false } := by
  simp [Common.errorEntry, Common.err, h]

theorem Common.cmdWrite_busy (c : Common) (w : Word) (h : c.busy = true) : c.cmdWrite w = c.overrun w := by
  simp [Common.cmdWrite, h]

theorem Common.cmdWrite_ignored (c : Common) (w : Word) (h : c.busy = false) (he : c.phase = .error)
    (hw : actsInError w = false) : c.cmdWrite w = c := by simp [Common.cmdWrite, h, Common.err, he, hw]

theorem Common.cmdWrite_accepted (c : Common) (w : Word) (h : c.busy = false)
    (he : c.phase ≠ .error ∨ actsInError w = true) : c.cmdWrite w = c.accept w := by
  rcases he with he | he <;> simp [Common.cmdWrite, h, Common.err, he]

/-- Everything a CMD write can do. -/
theorem Common.cmdWrite_cases (c : Common) (w : Word) :
    (c.busy = true ∧ c.cmdWrite w = c.overrun w) ∨
    (c.busy = false ∧ c.phase = .error ∧ actsInError w = false ∧ c.cmdWrite w = c) ∨
    (c.busy = false ∧ (c.phase ≠ .error ∨ actsInError w = true) ∧ c.cmdWrite w = c.accept w) := by
  rcases Bool.eq_false_or_eq_true c.busy with hb | hb
  · exact .inl ⟨hb, c.cmdWrite_busy w hb⟩
  · by_cases h : c.phase = .error ∧ actsInError w = false
    · exact .inr (.inl ⟨hb, h.1, h.2, c.cmdWrite_ignored w hb h.1 h.2⟩)
    · have h' : c.phase ≠ .error ∨ actsInError w = true := by
        by_cases hp : c.phase = .error
        · exact .inr (by simpa [hp] using h)
        · exact .inl hp
      exact .inr (.inr ⟨hb, h', c.cmdWrite_accepted w hb h'⟩)

/-- The words that act in ERROR (40_command_model R150). -/
theorem actsInError_iff (w : Word) :
    actsInError w = true ↔ w = 0x00000000 ∨ w = 0x00000001 ∨ w = 0x0000000E := by simp [actsInError]

/-! ### The phase check (40_command_model R154, R155) -/

theorem Enc.inPhase_of_mem (e : Enc) (ps : List Phase) (b : Body Enc) (h : e.core.phase ∈ ps) : e.inPhase ps b = b := by
  simp [Enc.inPhase, h]

theorem Enc.inPhase_of_not_mem (e : Enc) (ps : List Phase) (b : Body Enc) (h : e.core.phase ∉ ps) :
    e.inPhase ps b = .raised (e.raise .sequence) := by simp [Enc.inPhase, h]

theorem Dec.inPhase_of_mem (d : Dec) (ps : List Phase) (b : Body Dec) (h : d.core.phase ∈ ps) : d.inPhase ps b = b := by
  simp [Dec.inPhase, h]

theorem Dec.inPhase_of_not_mem (d : Dec) (ps : List Phase) (b : Body Dec) (h : d.core.phase ∉ ps) :
    d.inPhase ps b = .raised (d.raise .sequence) := by simp [Dec.inPhase, h]

/-! ### Micro-steps (40_command_model R156, R158) -/

/-- ENC after a micro-step whose body came to `b`. -/
def Enc.after (e : Enc) : Body Enc → Enc
  | .hold => e
  | .more e' => e'.withCore e'.core.goOn
  | .fin e' p => e'.withCore (e'.core.complete p)
  | .raised e' => e'

/-- DEC after a micro-step whose body came to `b`. -/
def Dec.after (d : Dec) : Body Dec → Dec
  | .hold => d
  | .more d' => d'.withCore d'.core.goOn
  | .fin d' p => d'.withCore (d'.core.complete p)
  | .raised d' => d'

/-- A micro-step of ENC is a next state in which only ENC changed. -/
theorem runEnc_eq (s : State) (b : Body Enc) : runEnc s b = .next { s with enc := s.enc.after b } := by cases b <;> rfl

/-- A micro-step of DEC is a next state in which only DEC changed. -/
theorem runDec_eq (s : State) (b : Body Dec) : runDec s b = .next { s with dec := s.dec.after b } := by cases b <;> rfl

/-- No micro-step stops the machine. -/
theorem exec_enc (i : Instr) (s : State) (h : i.unit = .enc) : ∃ b : Body Enc, exec i s = runEnc s b := by
  cases i
  case eNop => exact ⟨.fin s.enc s.enc.core.phase, rfl⟩
  case eClear => exact ⟨.fin { core := s.enc.core.clearBody, pkAcc := 0, pkPend := 0, packedBits := 0 } .counting, rfl⟩
  all_goals first | exact ⟨_, rfl⟩ | simp [Instr.unit] at h

theorem exec_dec (i : Instr) (s : State) (h : i.unit = .dec) : ∃ b : Body Dec, exec i s = runDec s b := by
  cases i
  case dNop => exact ⟨.fin s.dec s.dec.core.phase, rfl⟩
  case dClear =>
    exact ⟨.fin { (s.dec.withCore s.dec.core.clearBody).rewind with consumedBits := 0, eop := false } .ready, rfl⟩
  all_goals first | exact ⟨_, rfl⟩ | simp [Instr.unit] at h

/-- Everything one micro-step of DRAIN can do (45_encoder_control R278). -/
theorem Common.drainBody_cases (c : Common) :
    (c.input = [] ∧ c.drainBody = .hold) ∨
    (∃ rest, c.input = .eos :: rest ∧ c.drainBody = .fin { c with input := rest } c.phase) ∨
    (∃ b rest, c.input = .byte b :: rest ∧
      c.drainBody = .more { c with input := rest, inBytes := c.inBytes + 1 }) := by
  match h : c.input with
  | [] => exact .inl ⟨rfl, by simp [Common.drainBody, c.peek_zero_nil h]⟩
  | .eos :: rest =>
    exact .inr (.inl ⟨rest, rfl, by simp [Common.drainBody, c.peek_zero_cons _ _ h, c.consume_eos _ h]⟩)
  | .byte b :: rest =>
    exact .inr (.inr ⟨b, rest, rfl, by simp [Common.drainBody, c.peek_zero_cons _ _ h, c.consume_byte _ _ h]⟩)

/-! ### Whose move it is -/

theorem takeTurn_nil (s : State) (h : s.agenda = []) : takeTurn s = (.unit s.turn, { s with turn := otherUnit s.turn }) := by
  simp [takeTurn, h]

theorem takeTurn_cons (s : State) (m : Move) (rest : List Move) (h : s.agenda = m :: rest) :
    takeTurn s = (m, { s with agenda := rest }) := by simp [takeTurn, h]

/-- Taking a turn touches neither unit. -/
theorem takeTurn_units (s : State) : (takeTurn s).2.enc = s.enc ∧ (takeTurn s).2.dec = s.dec := by
  unfold takeTurn; split <;> exact ⟨rfl, rfl⟩

theorem fetch_idle (u : UnitId) (s : State) (h : (s.core u).busy = false) : fetch u s = .idle := by simp [fetch, h]

theorem fetch_run (u : UnitId) (s : State) (i : Instr) (h : (s.core u).busy = true)
    (hd : decode u (s.core u).cur = .ok i) : fetch u s = .run i := by simp [fetch, h, hd]

theorem fetch_illegal (u : UnitId) (s : State) (why : DecodeError) (h : (s.core u).busy = true)
    (hd : decode u (s.core u).cur = .illegal why) : fetch u s = .illegal := by simp [fetch, h, hd]

/-- A unit runs only commands of its own map (30_encoding R123). -/
theorem decode_unit (u : UnitId) (w : Word) (i : Instr) (h : decode u w = .ok i) : i.unit = u := by
  unfold decode at h
  split at h
  · cases h
  next row hf =>
    have hm := List.mem_of_find?_eq_some hf
    have hi : i = row.make (immField w) := by
      unfold OpcodeRow.read at h
      split at h
      · cases h
      · split at h
        · cases h
        · exact (Decoded.ok.inj h).symm
    subst hi
    cases u <;> simp only [opcodeMap, encOpcodeMap, decOpcodeMap, List.mem_cons, List.not_mem_nil, or_false] at hm <;>
      rcases hm with rfl | rfl | rfl | rfl | rfl | rfl | rfl | rfl | rfl | hm <;>
      first | rfl | (rcases hm with rfl | rfl | rfl <;> rfl)

/-! ### The packer (43_bitpacker R231) -/

/-- `Append` touches only the packer, the output stream and OUT_BYTES. -/
theorem Enc.append_core (e : Enc) (k : Code) :
    ∃ bs : List Byte, (e.append k).core = e.core.emitBytes bs := by
  unfold Enc.append
  dsimp only
  split
  · exact ⟨_, rfl⟩
  · exact ⟨[], by simp [Common.emitBytes]⟩

theorem Enc.append_packedBits (e : Enc) (k : Code) : (e.append k).packedBits = e.packedBits + k.len.setWidth 64 := by
  unfold Enc.append; dsimp only; split <;> rfl

theorem Enc.append_pkPend (e : Enc) (k : Code) : (e.append k).pkPend.toNat ≤ 8 := by
  unfold Enc.append
  dsimp only
  split
  · simp only [BitVec.toNat_ofNat]; omega
  · simp only [BitVec.toNat_ofNat]; omega

/-! ### The walk (44_bitreader R251) -/

/-- Everything a WalkStep can do. -/
theorem Dec.walkStep_cases (d : Dec) :
    (d.brCnt ≠ 0 ∧ d.walkStep = d.takeBit) ∨
    (d.brCnt = 0 ∧ d.core.input = [] ∧ d.walkStep = .hold) ∨
    (∃ b, d.brCnt = 0 ∧ d.core.input = [.byte b] ∧ d.walkStep = .hold) ∨
    (∃ rest, d.brCnt = 0 ∧ d.core.input = .eos :: rest ∧ d.walkNode = rootNode ∧
      d.walkStep = .ended (d.withCore { d.core with input := rest }).endPayload) ∨
    (∃ rest, d.brCnt = 0 ∧ d.core.input = .eos :: rest ∧ d.walkNode ≠ rootNode ∧
      d.walkStep = .cut ((d.withCore { d.core with input := rest }).raise .incompleteCode)) ∨
    (∃ b t rest, d.brCnt = 0 ∧ d.core.input = .byte b :: t :: rest ∧
      d.walkStep = ((d.withCore { d.core with input := t :: rest, inBytes := d.core.inBytes + 1 }).loadByte b
        (decide (t = .eos))).takeBit) := by
  by_cases h0 : d.brCnt = 0
  · match h : d.core.input with
    | [] => exact .inr (.inl ⟨h0, rfl, by simp [Dec.walkStep, h0, d.core.peek_zero_nil h]⟩)
    | [.byte b] =>
      refine .inr (.inr (.inl ⟨b, h0, rfl, ?_⟩))
      simp [Dec.walkStep, h0, Common.peek, h]
    | .eos :: rest =>
      by_cases hr : d.walkNode = rootNode
      · refine .inr (.inr (.inr (.inl ⟨rest, h0, rfl, hr, ?_⟩)))
        simp [Dec.walkStep, h0, d.core.peek_zero_cons _ _ h, hr, d.core.consume_eos _ h]
      · refine .inr (.inr (.inr (.inr (.inl ⟨rest, h0, rfl, hr, ?_⟩))))
        simp [Dec.walkStep, h0, d.core.peek_zero_cons _ _ h, hr, d.core.consume_eos _ h]
    | .byte b :: t :: rest =>
      refine .inr (.inr (.inr (.inr (.inr ⟨b, t, rest, h0, rfl, ?_⟩))))
      simp [Dec.walkStep, h0, Common.peek, h, d.core.consume_byte _ _ h]
  · exact .inl ⟨h0, by rw [Dec.walkStep, if_neg h0]⟩

/-! ### The trailing-bit-count map -/

/-- TBC is 1..8, never 0 (42_tree_codes R207). -/
theorem tbcOf_ne_zero (t : Counter) : (tbcOf t).toNat ≠ 0 := by
  unfold tbcOf
  split
  · decide
  · rw [BitVec.toNat_ofNat]; omega

/-! ### Host moves (70_reset R370) -/

/-- The two banks do not overlap (00_scope R12). -/
theorem banks_disjoint : Config.encBase + 4096 ≤ Config.decBase ∨ Config.decBase + 4096 ≤ Config.encBase := by
  unfold Config.encBase Config.decBase; split <;> omega

/-- An offset from ENC's base names ENC's register at that offset. -/
theorem bankAt_enc (off : BitVec 12) : bankAt (Config.encBase + off.toNat) = some (.enc, off) := by
  have h := off.isLt
  rw [bankAt, if_pos (by omega), Nat.add_sub_cancel_left, BitVec.ofNat_toNat, BitVec.setWidth_eq]

/-- An offset from DEC's base names DEC's register at that offset. -/
theorem bankAt_dec (off : BitVec 12) : bankAt (Config.decBase + off.toNat) = some (.dec, off) := by
  have h := off.isLt
  have hd := banks_disjoint
  rw [bankAt, if_neg (by omega), if_pos (by omega), Nat.add_sub_cancel_left, BitVec.ofNat_toNat, BitVec.setWidth_eq]

/-- Outside both banks there is nothing (20_memory R90, log entry 13). -/
theorem bankAt_outside (addr : Nat) (he : addr < Config.encBase ∨ Config.encBase + 4096 ≤ addr)
    (hd : addr < Config.decBase ∨ Config.decBase + 4096 ≤ addr) : bankAt addr = none := by
  rw [bankAt, if_neg (by omega), if_neg (by omega)]

/-- No register read touches a unit (20_memory R93). -/
theorem hostRead_units (u : UnitId) (off : BitVec 12) (width : Nat) (s : State) :
    (hostRead u off width s).enc = s.enc ∧ (hostRead u off width s).dec = s.dec := by
  unfold hostRead
  split
  · split <;> exact ⟨rfl, rfl⟩
  · exact ⟨rfl, rfl⟩

/-- A legal write changes the written unit by `regWrite`, and nothing else but the replies. -/
theorem hostWrite_legal (u : UnitId) (off : BitVec 12) (v : Word) (s : State) (h : off.toNat % 4 = 0) :
    hostWrite u off 32 v s = (s.setCore u ((s.core u).regWrite (regAt off) v)).reply .written := by
  simp [hostWrite, legalAccess, h]

end Sys2Proof.Machine
end

