-- ==== Sys2Proof/Laws/PerInstr.lean ====
section
/-! SUPPORT. The per-command family `EncodingFields`: what the fields of each command's word hold (30_encoding R120 to R122),
one lemma per command. -/

namespace Sys2Proof.Laws.EncodingFields

/-- The fields of the command's word: OPC its opcode, IMM its operand, RSV 0; and in format F0 the operand is 0 (R121). -/
def Statement (i : Instr) : Prop :=
  opcField (encode i) = i.opcode ∧ immField (encode i) = i.operand ∧ rsvField (encode i) = 0 ∧
  (i.format = .f0 → i.operand = 0) ∧
  (∃ row ∈ opcodeMap i.unit, row.opc = i.opcode ∧ row.fmt = i.format ∧ row.make i.operand = i)

/-- The three fields of any word put together from them. -/
theorem fields (imm opc : Byte) :
    opcField ((0 : BitVec 16) ++ imm ++ opc) = opc ∧ immField ((0 : BitVec 16) ++ imm ++ opc) = imm ∧
    rsvField ((0 : BitVec 16) ++ imm ++ opc) = 0 := by
  have low (a : BitVec 24) (k : Nat) (h : k < 8) : (a ++ opc).getLsbD k = opc.getLsbD k := by
    rw [BitVec.getLsbD_append, if_pos h]
  have high (a : BitVec 24) (k : Nat) : (a ++ opc).getLsbD (8 + k) = a.getLsbD k := by
    rw [BitVec.getLsbD_append, if_neg (by omega), Nat.add_sub_cancel_left]
  refine ⟨?_, ?_, ?_⟩ <;> ext k hk <;> simp only [opcField, immField, rsvField, BitVec.getElem_extractLsb']
  · rw [Nat.zero_add]
    exact (low _ k hk).trans (BitVec.getLsbD_eq_getElem hk)
  · refine (high _ k).trans ?_
    rw [BitVec.getLsbD_append, if_pos hk, BitVec.getLsbD_eq_getElem hk]
  · rw [show 16 + k = 8 + (8 + k) by omega]
    refine (high _ (8 + k)).trans ?_
    rw [BitVec.getLsbD_append, if_neg (by omega)]
    simp

/-- A command whose row is in its unit's map has the fields of the statement. -/
theorem of_row (i : Instr) (h0 : i.format = .f0 → i.operand = 0)
    (h : ∃ row ∈ opcodeMap i.unit, row.opc = i.opcode ∧ row.fmt = i.format ∧ row.make i.operand = i) : Statement i :=
  ⟨(fields _ _).1, (fields _ _).2.1, (fields _ _).2.2, h0, h⟩

theorem eNop : Statement .eNop :=
  of_row _ (fun _ => rfl) ⟨⟨Instr.eNop.opcode, .f0, fun _ => .eNop⟩, by simp [Instr.unit, opcodeMap, encOpcodeMap, Instr.opcode], rfl, rfl, rfl⟩

theorem eClear : Statement .eClear :=
  of_row _ (fun _ => rfl) ⟨⟨Instr.eClear.opcode, .f0, fun _ => .eClear⟩, by simp [Instr.unit, opcodeMap, encOpcodeMap, Instr.opcode], rfl, rfl, rfl⟩

theorem eAccum (sym : Symbol) : Statement (.eAccum sym) :=
  of_row _ (by simp [Instr.format]) ⟨⟨0x02, .f1, .eAccum⟩, by simp [Instr.unit, opcodeMap, encOpcodeMap], rfl, rfl, rfl⟩

theorem eAccumStream : Statement .eAccumStream :=
  of_row _ (fun _ => rfl) ⟨⟨Instr.eAccumStream.opcode, .f0, fun _ => .eAccumStream⟩, by simp [Instr.unit, opcodeMap, encOpcodeMap, Instr.opcode], rfl, rfl, rfl⟩

theorem eBuildTree : Statement .eBuildTree :=
  of_row _ (fun _ => rfl) ⟨⟨Instr.eBuildTree.opcode, .f0, fun _ => .eBuildTree⟩, by simp [Instr.unit, opcodeMap, encOpcodeMap, Instr.opcode], rfl, rfl, rfl⟩

theorem eGenCodes : Statement .eGenCodes :=
  of_row _ (fun _ => rfl) ⟨⟨Instr.eGenCodes.opcode, .f0, fun _ => .eGenCodes⟩, by simp [Instr.unit, opcodeMap, encOpcodeMap, Instr.opcode], rfl, rfl, rfl⟩

theorem eEmitHeader : Statement .eEmitHeader :=
  of_row _ (fun _ => rfl) ⟨⟨Instr.eEmitHeader.opcode, .f0, fun _ => .eEmitHeader⟩, by simp [Instr.unit, opcodeMap, encOpcodeMap, Instr.opcode], rfl, rfl, rfl⟩

theorem ePack (sym : Symbol) : Statement (.ePack sym) :=
  of_row _ (by simp [Instr.format]) ⟨⟨0x07, .f1, .ePack⟩, by simp [Instr.unit, opcodeMap, encOpcodeMap], rfl, rfl, rfl⟩

theorem ePackStream : Statement .ePackStream :=
  of_row _ (fun _ => rfl) ⟨⟨Instr.ePackStream.opcode, .f0, fun _ => .ePackStream⟩, by simp [Instr.unit, opcodeMap, encOpcodeMap, Instr.opcode], rfl, rfl, rfl⟩

theorem eFinish : Statement .eFinish :=
  of_row _ (fun _ => rfl) ⟨⟨Instr.eFinish.opcode, .f0, fun _ => .eFinish⟩, by simp [Instr.unit, opcodeMap, encOpcodeMap, Instr.opcode], rfl, rfl, rfl⟩

theorem ePrepare : Statement .ePrepare :=
  of_row _ (fun _ => rfl) ⟨⟨Instr.ePrepare.opcode, .f0, fun _ => .ePrepare⟩, by simp [Instr.unit, opcodeMap, encOpcodeMap, Instr.opcode], rfl, rfl, rfl⟩

theorem eDrain : Statement .eDrain :=
  of_row _ (fun _ => rfl) ⟨⟨Instr.eDrain.opcode, .f0, fun _ => .eDrain⟩, by simp [Instr.unit, opcodeMap, encOpcodeMap, Instr.opcode], rfl, rfl, rfl⟩

theorem dNop : Statement .dNop :=
  of_row _ (fun _ => rfl) ⟨⟨Instr.dNop.opcode, .f0, fun _ => .dNop⟩, by simp [Instr.unit, opcodeMap, decOpcodeMap, Instr.opcode], rfl, rfl, rfl⟩

theorem dClear : Statement .dClear :=
  of_row _ (fun _ => rfl) ⟨⟨Instr.dClear.opcode, .f0, fun _ => .dClear⟩, by simp [Instr.unit, opcodeMap, decOpcodeMap, Instr.opcode], rfl, rfl, rfl⟩

theorem dLoadHeader : Statement .dLoadHeader :=
  of_row _ (fun _ => rfl) ⟨⟨Instr.dLoadHeader.opcode, .f0, fun _ => .dLoadHeader⟩, by simp [Instr.unit, opcodeMap, decOpcodeMap, Instr.opcode], rfl, rfl, rfl⟩

theorem dBuildTree : Statement .dBuildTree :=
  of_row _ (fun _ => rfl) ⟨⟨Instr.dBuildTree.opcode, .f0, fun _ => .dBuildTree⟩, by simp [Instr.unit, opcodeMap, decOpcodeMap, Instr.opcode], rfl, rfl, rfl⟩

theorem dGenCodes : Statement .dGenCodes :=
  of_row _ (fun _ => rfl) ⟨⟨Instr.dGenCodes.opcode, .f0, fun _ => .dGenCodes⟩, by simp [Instr.unit, opcodeMap, decOpcodeMap, Instr.opcode], rfl, rfl, rfl⟩

theorem dCheckTbc : Statement .dCheckTbc :=
  of_row _ (fun _ => rfl) ⟨⟨Instr.dCheckTbc.opcode, .f0, fun _ => .dCheckTbc⟩, by simp [Instr.unit, opcodeMap, decOpcodeMap, Instr.opcode], rfl, rfl, rfl⟩

theorem dWalk : Statement .dWalk :=
  of_row _ (fun _ => rfl) ⟨⟨Instr.dWalk.opcode, .f0, fun _ => .dWalk⟩, by simp [Instr.unit, opcodeMap, decOpcodeMap, Instr.opcode], rfl, rfl, rfl⟩

theorem dDecodeStream : Statement .dDecodeStream :=
  of_row _ (fun _ => rfl) ⟨⟨Instr.dDecodeStream.opcode, .f0, fun _ => .dDecodeStream⟩, by simp [Instr.unit, opcodeMap, decOpcodeMap, Instr.opcode], rfl, rfl, rfl⟩

theorem dDrain : Statement .dDrain :=
  of_row _ (fun _ => rfl) ⟨⟨Instr.dDrain.opcode, .f0, fun _ => .dDrain⟩, by simp [Instr.unit, opcodeMap, decOpcodeMap, Instr.opcode], rfl, rfl, rfl⟩

theorem dRun : Statement .dRun :=
  of_row _ (fun _ => rfl) ⟨⟨Instr.dRun.opcode, .f0, fun _ => .dRun⟩, by simp [Instr.unit, opcodeMap, decOpcodeMap, Instr.opcode], rfl, rfl, rfl⟩

end Sys2Proof.Laws.EncodingFields
end

