-- ==== Sys2Proof/Laws/Tree.lean ====
section
/-! SUPPORT. The small lemmas of the tree builder: the active set keeps its members and its order, and what one merge does. -/

namespace Sys2Proof.Machine

/-- The order of 42_tree_codes R201 as a proposition. -/
theorem Active.before_iff (a b : Active) : a.before b = true ↔ a.w < b.w ∨ (a.w = b.w ∧ a.n < b.n) := by
  simp [Active.before, Nat.blt_eq, Nat.beq_eq]

/-- Inserting adds exactly the member. -/
theorem insertActive_perm (a : Active) (l : List Active) : (insertActive a l).Perm (a :: l) := by
  induction l with
  | nil => rfl
  | cons b rest ih =>
    simp only [insertActive]
    split
    · exact (List.Perm.cons b ih).trans (List.Perm.swap a b rest)
    · rfl

/-- Inserting keeps the active set in order. -/
theorem insertActive_sorted (a : Active) (l : List Active) (h : l.Pairwise fun x y => y.before x = false) :
    (insertActive a l).Pairwise fun x y => y.before x = false := by
  induction l with
  | nil => simp [insertActive]
  | cons b rest ih =>
    rw [List.pairwise_cons] at h
    have trans : ∀ x y z : Active, y.before x = false → z.before y = false → z.before x = false := by
      intro x y z h1 h2
      rw [Bool.eq_false_iff, ne_eq, Active.before_iff] at h1 h2 ⊢
      omega
    simp only [insertActive]
    split
    next hb =>
      rw [List.pairwise_cons]
      refine ⟨fun c hc => ?_, ih h.2⟩
      rcases List.mem_cons.mp ((insertActive_perm a rest).mem_iff.mp hc) with rfl | hc
      · rw [Bool.eq_false_iff, ne_eq, Active.before_iff]
        rw [Active.before_iff] at hb
        omega
      · exact h.1 c hc
    next hb =>
      rw [List.pairwise_cons]
      refine ⟨fun c hc => ?_, List.pairwise_cons.mpr h⟩
      rcases List.mem_cons.mp hc with rfl | hc
      · exact hb
      · exact trans _ _ _ hb (h.1 c hc)

/-- The first active set holds exactly the 256 leaves. -/
theorem firstActives_perm (count : Vector (BitVec 32) 256) : (firstActives count).Perm (leafActives count) := by
  unfold firstActives
  induction leafActives count with
  | nil => rfl
  | cons a l ih => exact (insertActive_perm a _).trans (List.Perm.cons a ih)

/-- The first active set is in order. -/
theorem firstActives_sorted (count : Vector (BitVec 32) 256) :
    (firstActives count).Pairwise fun x y => y.before x = false := by
  unfold firstActives
  induction leafActives count with
  | nil => exact List.Pairwise.nil
  | cons a l ih => exact insertActive_sorted a _ ih

/-- One merge (42_tree_codes R201). -/
theorem mergeNodes_cons (k m : Nat) (x y : Active) (rest : List Active) :
    mergeNodes (k + 1) m (x :: y :: rest) =
      ⟨BitVec.ofNat 40 (x.w + y.w), BitVec.ofNat 9 x.n, BitVec.ofNat 9 y.n⟩ ::
        mergeNodes k (m + 1) (insertActive ⟨x.w + y.w, m⟩ rest) := rfl

/-- A leaf of the tree (42_tree_codes R200). -/
theorem treeBuild_leaf (count : Vector (BitVec 32) 256) (n : Nat) (h : n < 256) :
    (treeBuild count)[n] = ⟨count[n].setWidth 40, 0, 0⟩ := by
  show (treeNodes count).toArray[n]'_ = _
  simp [treeNodes, leafNodes, List.getElem_append_left, h]

/-- The code of a child (42_tree_codes R205). -/
theorem leafCodes_inner (node : Vector Node 511) (fuel : Nat) (n : NodeIdx) (k : Code) (h : 255 < n.toNat) :
    leafCodes node (fuel + 1) n k =
      leafCodes node fuel (nodeOf node n).l (k.extend false) ++ leafCodes node fuel (nodeOf node n).r (k.extend true) := by
  simp [leafCodes, Nat.not_le.mpr h]

/-- A leaf's code is the one accumulated on the way (42_tree_codes R205). -/
theorem leafCodes_leaf (node : Vector Node 511) (fuel : Nat) (n : NodeIdx) (k : Code) (h : n.toNat ≤ 255) :
    leafCodes node (fuel + 1) n k = [(n.setWidth 8, k)] := by simp [leafCodes, h]

/-- One bit of the walk to a leaf: the symbol is given and the walk is at the root again (44_bitreader R250). -/
theorem decodeBits_leaf (node : Vector Node 511) (n : NodeIdx) (b : Bool) (bs : List Bool)
    (h : (if b then (nodeOf node n).r else (nodeOf node n).l).toNat ≤ 255) :
    decodeBits node n (b :: bs) = (decodeBits node rootNode bs).map
      ((if b then (nodeOf node n).r else (nodeOf node n).l).setWidth 8 :: ·) := by simp only [decodeBits, h, if_true]

/-- One bit of the walk to an inner node (44_bitreader R250). -/
theorem decodeBits_inner (node : Vector Node 511) (n : NodeIdx) (b : Bool) (bs : List Bool)
    (h : 255 < (if b then (nodeOf node n).r else (nodeOf node n).l).toNat) :
    decodeBits node n (b :: bs) = decodeBits node (if b then (nodeOf node n).r else (nodeOf node n).l) bs := by
  simp only [decodeBits, Nat.not_le.mpr h, if_false]

end Sys2Proof.Machine
end

