-- ==== Sys2Proof/Tests/Slice0.lean ====
section
/-! SUPPORT. Tests of single steps, each expected result from the spec's own examples and vectors (95_test_vectors) or by hand
from a rule; the well-formedness smoke test; and a witness for the hypotheses of each statement. -/

namespace Sys2Proof.Tests

open Sys2Proof Sys2Proof.Machine

/-! ### Helpers -/

/-- ENC running a command in phase `p`, with an input queued, after a CLEAR. -/
def encIn (p : Phase) (input : List Token) : Common :=
  { Common.reset with phase := p, busy := true, countInit := true, input := input }

/-- The machine with ENC's common part `c`. -/
def withEnc (c : Common) : State := { State.reset with enc := { Enc.reset with core := c } }

/-- The machine with DEC's common part `c`. -/
def withDec (c : Common) : State := { State.reset with dec := { Dec.reset with core := c } }

/-- The next state, if there is one. -/
def next? (o : Host.Outcome State Fault Refusal) : Option State :=
  match o with
  | .next t => some t
  | .fault _ => none
  | .refused _ => none

/-- What `f` shows of the state after command `i`. -/
def see {α : Type} (i : Instr) (s : State) (f : State → α) : Option α := (next? (exec i s)).map f

/-- What `f` shows of the state after a host move. -/
def seeMove {α : Type} (a : HostMove) (s : State) (f : State → α) : Option α := (next? (hostMove a s)).map f

/-- STATUS of ENC. -/
def encStatus (s : State) : Word := statusWord .enc s.enc.core false

/-- STATUS of DEC. -/
def decStatus (s : State) : Word := statusWord .dec s.dec.core s.dec.eop

/-! ### Well-formedness (30_encoding R129) -/

theorem test_dec_command_ill_formed_in_enc : WellFormed .enc .dRun = false := by decide
theorem test_enc_command_ill_formed_in_dec : WellFormed .dec .eNop = false := by decide
theorem test_enc_command_well_formed : WellFormed .enc (.eAccum 0xFF) = true := by decide
theorem test_dec_command_well_formed : WellFormed .dec .dRun = true := by decide

/-! ### Decoding: words written out bit by bit, RSV, IMM, OPC (30_encoding R120, R124, R125) -/

theorem test_word_eNop : decode .enc 0b0000000000000000_00000000_00000000 = .ok .eNop := by decide
theorem test_word_eClear : decode .enc 0b0000000000000000_00000000_00000001 = .ok .eClear := by decide
theorem test_word_eAccum : decode .enc 0b0000000000000000_01100001_00000010 = .ok (.eAccum 0x61) := by decide
theorem test_word_eAccum_zero : decode .enc 0b0000000000000000_00000000_00000010 = .ok (.eAccum 0) := by decide
theorem test_word_eAccumStream : decode .enc 0b0000000000000000_00000000_00000011 = .ok .eAccumStream := by decide
theorem test_word_eBuildTree : decode .enc 0b0000000000000000_00000000_00000100 = .ok .eBuildTree := by decide
theorem test_word_eGenCodes : decode .enc 0b0000000000000000_00000000_00000101 = .ok .eGenCodes := by decide
theorem test_word_eEmitHeader : decode .enc 0b0000000000000000_00000000_00000110 = .ok .eEmitHeader := by decide
theorem test_word_ePack : decode .enc 0b0000000000000000_11111111_00000111 = .ok (.ePack 0xFF) := by decide
theorem test_word_ePackStream : decode .enc 0b0000000000000000_00000000_00001000 = .ok .ePackStream := by decide
theorem test_word_eFinish : decode .enc 0b0000000000000000_00000000_00001001 = .ok .eFinish := by decide
theorem test_word_ePrepare : decode .enc 0b0000000000000000_00000000_00001010 = .ok .ePrepare := by decide
theorem test_word_eDrain : decode .enc 0b0000000000000000_00000000_00001110 = .ok .eDrain := by decide
theorem test_word_dNop : decode .dec 0b0000000000000000_00000000_00000000 = .ok .dNop := by decide
theorem test_word_dClear : decode .dec 0b0000000000000000_00000000_00000001 = .ok .dClear := by decide
theorem test_word_dLoadHeader : decode .dec 0b0000000000000000_00000000_00000010 = .ok .dLoadHeader := by decide
theorem test_word_dBuildTree : decode .dec 0b0000000000000000_00000000_00000100 = .ok .dBuildTree := by decide
theorem test_word_dGenCodes : decode .dec 0b0000000000000000_00000000_00000101 = .ok .dGenCodes := by decide
theorem test_word_dCheckTbc : decode .dec 0b0000000000000000_00000000_00000110 = .ok .dCheckTbc := by decide
theorem test_word_dWalk : decode .dec 0b0000000000000000_00000000_00000111 = .ok .dWalk := by decide
theorem test_word_dDecodeStream : decode .dec 0b0000000000000000_00000000_00001000 = .ok .dDecodeStream := by decide
theorem test_word_dDrain : decode .dec 0b0000000000000000_00000000_00001110 = .ok .dDrain := by decide
theorem test_word_dRun : decode .dec 0b0000000000000000_00000000_00001111 = .ok .dRun := by decide

/-- V-E5 to V-E13: the illegal words of the vector table. -/
theorem test_illegal_words :
    decode .enc 0x00000103 = .illegal .operandNotZero ∧ decode .enc 0x00010002 = .illegal .reservedNotZero ∧
    decode .enc 0x80000000 = .illegal .reservedNotZero ∧ decode .enc 0x0000000B = .illegal .unassignedOpcode ∧
    decode .enc 0x0000000F = .illegal .unassignedOpcode ∧ decode .dec 0x00000003 = .illegal .unassignedOpcode ∧
    decode .dec 0x00006102 = .illegal .operandNotZero ∧ decode .enc 0xFFFFFFFF = .illegal .unassignedOpcode ∧
    decode .dec 0xFFFFFFFF = .illegal .unassignedOpcode := by decide

/-- No two rows of a map share an opcode, so no word has two meanings (30_encoding R124, R125). -/
theorem test_opcodes_distinct :
    (encOpcodeMap.map OpcodeRow.opc).Nodup ∧ (decOpcodeMap.map OpcodeRow.opc).Nodup := by decide

/-- Every command encodes to the word of its row (30_encoding R124, R125). -/
theorem test_encode_words :
    encode (.eAccum 0x61) = 0x00006102 ∧ encode (.ePack 0xFF) = 0x0000FF07 ∧ encode .ePrepare = 0x0000000A ∧
    encode .dRun = 0x0000000F := by decide

/-! ### Encoder commands -/

/-- 45_encoder_control R270: in COUNTING, NOP leaves STATUS COUNTING with DONE; V-A6: in ERROR it leaves 0xF06. -/
theorem test_eNop : see .eNop (withEnc (encIn .counting [])) encStatus = some 0x00000102 := by decide
theorem test_eNop_in_error : see .eNop (withEnc (encIn .error [])) encStatus = some 0x00000F06 := by decide

/-- 45_encoder_control R271: from ERROR, CLEAR leaves STATUS 0x102 and keeps the input queued. -/
theorem test_eClear :
    see .eClear (withEnc { encIn .error [.eos] with errCause := ⟨0x11, 0x09, 4⟩, inBytes := 5 }) (fun t =>
      (encStatus t, t.enc.core.errCause.word, t.enc.core.inBytes, t.enc.core.input)) =
    some (0x00000102, 0, 0, [.eos]) := by decide

/-- 41_frequency R181, example: 4 becomes 5. -/
theorem test_eAccum :
    see (.eAccum 0x61) (withEnc ((encIn .counting []).setCount 0x61 4)) (fun t => (t.enc.core.countAt 0x61, encStatus t)) =
    some (5, 0x00000102) := by decide

/-- V-A5: overflow by command. -/
theorem test_eAccum_overflow :
    see (.eAccum 0x41) (withEnc { (encIn .counting []).setCount 0x41 0xFFFFFFFF with cur := 0x00004102 }) (fun t =>
      (t.enc.core.countAt 0x41, t.enc.core.errCause.word, encStatus t)) =
    some (0xFFFFFFFF, 0x00040210, 0x00000F04) := by decide

/-- 41_frequency R182: a byte is counted and consumed. -/
theorem test_eAccumStream :
    see .eAccumStream (withEnc (encIn .counting [.byte 0x61, .eos])) (fun t =>
      (t.enc.core.countAt 0x61, t.enc.core.inBytes, t.enc.core.input, encStatus t)) =
    some (1, 1, [.eos], 0x00000101) := by decide

/-- V-A6: overflow by stream; the offending byte is consumed. -/
theorem test_eAccumStream_overflow :
    see .eAccumStream (withEnc
      { (encIn .counting [.byte 0x41, .byte 0x42, .eos]).setCount 0x41 0xFFFFFFFF with cur := 0x00000003 }) (fun t =>
      (t.enc.core.errCause.word, t.enc.core.inBytes, t.enc.core.input)) =
    some (0x00040310, 1, [.byte 0x42, .eos]) := by decide

/-- V-T9: a second E.BUILD_TREE raises SEQUENCE. -/
theorem test_eBuildTree_twice :
    see .eBuildTree (withEnc { encIn .treeBuilt [] with cur := 0x00000004 }) (fun t =>
      (t.enc.core.errCause.word, encStatus t)) = some (0x00030402, 0x00000F04) := by decide

/-- E.GEN_CODES out of phase (40_command_model R154): IDLE. -/
theorem test_eGenCodes_out_of_phase :
    see .eGenCodes (withEnc { encIn .idle [] with cur := 0x00000005 }) (fun t => t.enc.core.errCause.word) =
    some 0x00030502 := by decide

/-- 45_encoder_control R275, example: the header of "a" ends `00 00 00 01`, 632 zero bytes, `01`. -/
theorem test_eEmitHeader :
    see .eEmitHeader (withEnc { (encIn .codesReady []).setCount 0x61 1 with calcTbc := 1 }) (fun t =>
      (t.enc.core.outBytes, t.enc.core.output == List.replicate 388 (.byte 0) ++ [.byte 0, .byte 0, .byte 0, .byte 1] ++
        List.replicate 632 (.byte 0) ++ [.byte 1])) = some (1025, true) := by decide +kernel

/-- 43_bitpacker R233, example: '0' then '110'. -/
theorem test_ePack :
    (Enc.append (Enc.append Enc.reset ⟨1, 0⟩) ⟨3, 6⟩).bitstate = 0x00000406 ∧
    (Enc.append (Enc.append Enc.reset ⟨1, 0⟩) ⟨3, 6⟩).core.output = [] := by decide

/-- 43_bitpacker R233, corner: a 255-bit code from PK_PEND = 8 emits 32 bytes and leaves 7 bits. -/
theorem test_ePack_longest :
    (Enc.append { Enc.reset with pkPend := 8, pkAcc := 0xA5 } ⟨255, 1⟩).pkPend = 7 ∧
    (Enc.append { Enc.reset with pkPend := 8, pkAcc := 0xA5 } ⟨255, 1⟩).core.outBytes = 32 ∧
    (Enc.append { Enc.reset with pkPend := 8, pkAcc := 0xA5 } ⟨255, 1⟩).core.output.head? = some (.byte 0xA5) := by
  decide +kernel

/-- 43_bitpacker R234: a lone EOS packs nothing and completes in PACKING. -/
theorem test_ePackStream_empty :
    see .ePackStream (withEnc (encIn .headerSent [.eos])) (fun t => (encStatus t, t.enc.packedBits)) =
    some (0x00000502, 0) := by decide

/-- 43_bitpacker R236, example: "aab", PK_ACC = 13, PK_PEND = 4. -/
theorem test_eFinish :
    see .eFinish { State.reset with enc :=
      { core := { encIn .packing [] with totalBits := 4 }, pkAcc := 13, pkPend := 4, packedBits := 4 } } (fun t =>
      (t.enc.core.output, t.enc.core.auxTbc, encStatus t)) = some ([.byte 0xD0, .eos], 4, 0x00000602) := by decide

/-- 43_bitpacker R235: PASS_MISMATCH emits nothing and keeps the packer. -/
theorem test_eFinish_mismatch :
    see .eFinish { State.reset with enc :=
      { core := { encIn .packing [] with totalBits := 5, cur := 9 }, pkAcc := 13, pkPend := 4, packedBits := 4 } } (fun t =>
      (t.enc.core.output, t.enc.bitstate, t.enc.core.errCause.word)) = some ([], 0x0000040D, 0x00040911) := by decide

/-- 45_encoder_control R276: the first hand-over keeps BUSY 1 and DONE 0, in TREE_BUILT. -/
theorem test_ePrepare_hand_over :
    see .ePrepare (withEnc (encIn .counting [])) (fun t => (encStatus t, t.enc.core.stage)) = some (0x00000201, 1) := by
  decide

/-- V-A6, end: E.DRAIN in ERROR. -/
theorem test_eDrain_byte :
    see .eDrain (withEnc (encIn .error [.byte 0x42, .eos])) (fun t => (t.enc.core.inBytes, t.enc.core.input)) =
    some (1, [.eos]) := by decide
theorem test_eDrain_eos :
    see .eDrain (withEnc (encIn .error [.eos])) (fun t => (t.enc.core.inBytes, encStatus t)) =
    some (0, 0x00000F06) := by decide

/-! ### Tree and codes: V-C4, the counts of "abracadabra" -/

/-- The counts of "abracadabra". -/
def abraCounts : Vector (BitVec 32) 256 :=
  (((((Vector.replicate 256 0).set 0x61 5).set 0x62 2).set 0x63 1).set 0x64 1).set 0x72 2

/-- The nodes 506 to 510 of V-C4, the codes of a, b, r, d, c and 0x00, TOTAL_BITS and CALC_TBC. -/
def abraExpected : Bool :=
  let node := treeBuild abraCounts
  let code := codeGen node
  ([506, 507, 508, 509, 510].map fun n => nodeOf node n) ==
    [⟨1, 505, 99⟩, ⟨2, 100, 506⟩, ⟨4, 98, 114⟩, ⟨6, 507, 508⟩, ⟨11, 97, 509⟩] &&
  (([0x61, 0x62, 0x72, 0x64, 0x63, 0x00] : List Symbol).map fun x => code[x.toNat]) ==
    [⟨1, 0⟩, ⟨3, 6⟩, ⟨3, 7⟩, ⟨3, 4⟩, ⟨4, 0xB⟩, ⟨12, 0xA0A⟩] &&
  totalBitsOf abraCounts code == 24 && tbcOf (totalBitsOf abraCounts code) == 8

/-- V-C4. -/
theorem test_abracadabra_tree_and_codes : abraExpected = true := by decide +kernel

/-- 44_bitreader R252, example: the bits 1, 1, 0 of "ab" walk to 0x61, 0x62; a bit 1 alone is a cut code. -/
theorem test_decodeBits_ab :
    let node := ((Vector.replicate 511 ⟨0, 0, 0⟩).set 510 ⟨2, 98, 509⟩).set 509 ⟨1, 0, 97⟩
    decodeBits node 510 (meaningfulBits 3 [0xC0]) = some [0x61, 0x62] ∧ decodeBits node 510 [true] = none := by
  decide +kernel

/-- V-S7: a header cut short, and a file cut at offset 1024. -/
theorem test_decodeFile_cut :
    decodeFile (List.replicate 1023 0) = .failed .truncatedHeader ∧
    decodeFile (List.replicate 1024 0) = .failed .missingTbc := by decide +kernel

/-- 30_encoding R136, V-F5: the bytes 00 00 00 05 at offset 0x184 are the count of 0x61, and none is that of 0x62. -/
theorem test_headerCounts :
    (headerCounts (List.replicate 0x184 0 ++ [0, 0, 0, 5] ++ List.replicate 632 0))[0x61] = 5 ∧
    (headerCounts (List.replicate 0x184 0 ++ [0, 0, 0, 5] ++ List.replicate 632 0))[0x62] = 0 := by
  constructor <;> (simp only [headerCounts, Vector.getElem_ofFn]; decide +kernel)

/-- V-S6: the trailing-bit-count map. -/
theorem test_tbc_map :
    ([0, 1, 3, 4, 7, 8, 9, 22, 24, 79, 8796093020160, 20365011024] : List Counter).map tbcOf =
    [8, 1, 3, 4, 7, 8, 1, 6, 8, 7, 8, 8] := by decide

/-- 10_state R56: a completed CLEAR makes COUNT specified, so that it reads 0 in COUNTING and in an ERROR after it. -/
theorem test_clear_makes_count_specified :
    see .eClear (withEnc { Common.reset with phase := .error }) (fun t =>
      (t.enc.core.countInit, countWindow t.enc.core 7, countWindow { t.enc.core with phase := .error } 7)) =
    some (true, .exact 0, .exact 0) := by decide +kernel

/-! ### Decoder commands -/

/-- 46_decoder_control R290, example, and R291, example. -/
theorem test_dNop : see .dNop (withDec (encIn .decoding [.eos])) (fun t => (decStatus t, t.dec.core.input)) =
    some (0x00000502, [.eos]) := by decide
theorem test_dClear :
    see .dClear { State.reset with dec := { Dec.reset with
      core := { encIn .done [] with inBytes := 1028, outBytes := 11 }
      eop := true, walkNode := 300, consumedBits := 24 } } (fun t =>
      (decStatus t, t.dec.core.inBytes, t.dec.core.outBytes, t.dec.consumedBits, t.dec.walkNode)) =
    some (0x00000102, 0, 0, 0, 510) := by decide

/-- V-H1: the second header byte 0x34 goes to bits 23:16 of COUNT[0]. -/
theorem test_dLoadHeader_byte_order :
    see .dLoadHeader { State.reset with dec := { Dec.reset with hdrIdx := 1, core :=
      { (encIn .ready [.byte 0x34]).setCount 0 0x12000000 with begun := true } } } (fun t =>
      (t.dec.core.countAt 0, t.dec.hdrIdx, decStatus t)) = some (0x12340000, 2, 0x00000101) := by decide

/-- V-H1: the 1024th byte completes in HEADER_LOADED. -/
theorem test_dLoadHeader_last :
    see .dLoadHeader { State.reset with dec := { Dec.reset with hdrIdx := 1023, core :=
      { encIn .ready [.byte 0xFF, .eos] with begun := true } } } (fun t =>
      (t.dec.core.countAt 255, t.dec.hdrIdx, decStatus t, t.dec.core.input)) =
    some (0x000000FF, 1024, 0x00000202, [.eos]) := by decide

/-- 40_command_model R154: D.BUILD_TREE and D.GEN_CODES in READY. -/
theorem test_dBuildTree_out_of_phase :
    see .dBuildTree (withDec { encIn .ready [] with cur := 4 }) (fun t => t.dec.core.errCause.word) = some 0x00030402 := by
  decide
theorem test_dGenCodes_out_of_phase :
    see .dGenCodes (withDec { encIn .ready [] with cur := 5 }) (fun t => t.dec.core.errCause.word) = some 0x00030502 := by
  decide

/-- 46_decoder_control R293, example: 0x01 passes, 0x02 is a mismatch that is kept in AUX_TBC. -/
theorem test_dCheckTbc :
    see .dCheckTbc (withDec { encIn .codesReady [.byte 1] with calcTbc := 1 }) decStatus = some 0x00000502 := by decide
theorem test_dCheckTbc_mismatch :
    see .dCheckTbc (withDec { encIn .codesReady [.byte 2] with calcTbc := 1, cur := 6 }) (fun t =>
      (t.dec.core.errCause.word, t.dec.core.auxTbc, t.dec.core.auxValid)) = some (0x00020622, 2, true) := by decide

/-- The two nodes the walks of the file of "ab" use (44_bitreader R252, example: a = '11', b = '0'). -/
def abDec (input : List Token) : Dec :=
  { Dec.reset with core := { encIn .decoding input with
      calcTbc := 3, node := ((Vector.replicate 511 ⟨0, 0, 0⟩).set 510 ⟨2, 98, 509⟩).set 509 ⟨1, 0, 97⟩ } }

/-- R252, example: the first bit of 0xC0, TBC 3, goes right and stays inside the tree. -/
theorem test_dWalk_first_bit :
    see .dWalk { State.reset with dec := abDec [.byte 0xC0, .eos] } (fun t =>
      (t.dec.bitstate, t.dec.core.output, t.dec.consumedBits)) = some (0x01FD1202, [], 1) := by decide +kernel

/-- R252, example: the second bit emits 0x61. -/
theorem test_dWalk_symbol :
    see .dWalk { State.reset with dec :=
      { abDec [.eos] with brBuf := 2, brCnt := 2, brLast := true, walkNode := 509 } } (fun t =>
      (t.dec.core.output, t.dec.walkNode, decStatus t)) = some ([.byte 0x61], 510, 0x00000502) := by
  decide +kernel

/-- R252, R253: at EOS and the root, EOS is emitted and EOP set; inside the tree, INCOMPLETE_CODE. -/
theorem test_dDecodeStream_end :
    see .dDecodeStream { State.reset with dec := abDec [.eos] } (fun t => (t.dec.core.output, decStatus t)) =
    some ([.eos], 0x0000060A) := by decide
theorem test_dDecodeStream_cut :
    see .dDecodeStream { State.reset with dec :=
      { abDec [.eos] with walkNode := 509, core := { (abDec [.eos]).core with cur := 8 } } } (fun t =>
      (t.dec.core.errCause.word, t.dec.core.input)) = some (0x00020823, []) := by decide

theorem test_dDrain : see .dDrain (withDec (encIn .error [.eos])) decStatus = some 0x00000F06 := by decide

/-- 46_decoder_control R295: an EOS in the header is TRUNCATED_HEADER with the opcode of D.RUN. -/
theorem test_dRun_truncated :
    see .dRun (withDec { encIn .ready [.eos] with begun := true, cur := 0x0000000F }) (fun t =>
      (t.dec.core.errCause.word, t.dec.core.input)) = some (0x00010F20, []) := by decide

/-- R295: STAGE 4 completes at the end of the payload. -/
theorem test_dRun_end :
    see .dRun { State.reset with dec :=
      { abDec [.eos] with core := { (abDec [.eos]).core with begun := true, stage := 4 } } } decStatus =
    some 0x0000060A := by decide

/-! ### The command cycle, registers and streams -/

/-- V-E5: an illegal word is accepted, then its first micro-step raises ILLEGAL_CMD. -/
theorem test_illegal_word_step :
    (next? (step (State.reset.withFetchWord 32 0x00000103))).map (fun t => (t.enc.core.errCause.word, encStatus t)) =
    some (0x00030301, 0x00000F04) := by decide

/-- V-A7: E.ACCUM 0x61 as the first command after reset raises SEQUENCE. -/
theorem test_first_step_after_reset :
    (next? (step (State.reset.withFetchWord 32 0x00006102))).map (fun t => t.enc.core.errCause.word) =
    some 0x00030202 := by decide

/-- 70_reset R367: CLEAR written while BUSY is an overrun with OPC 0x01. -/
theorem test_overrun :
    seeMove (.write .enc 0x008 32 0x00000001) (withEnc (encIn .counting [])) (fun t =>
      (t.enc.core.errCause.word, encStatus t)) = some (0x00030103, 0x00000F04) := by decide

/-- V-E15, V-E18: in ERROR an illegal word is ignored, DRAIN is accepted. -/
theorem test_ignored_in_error :
    seeMove (.write .dec 0x008 32 0x00000101) (withDec { Common.reset with phase := .error }) decStatus =
    some 0x00000F04 := by decide
theorem test_accepted_in_error :
    seeMove (.write .dec 0x008 32 0x0000000E) (withDec { Common.reset with phase := .error }) decStatus =
    some 0x00000F05 := by decide

/-- 10_state R33, R57; 20_memory R91: ID, a reserved offset, a narrow read. -/
theorem test_reads :
    seeMove (.read .dec 0x000 32) State.reset State.replies = some [.value 0x48444543] ∧
    seeMove (.read .enc 0xFFC 32) State.reset State.replies = some [.value 0] ∧
    seeMove (.read .enc 0x000 8) State.reset State.replies = some [.readError 0] := by decide

/-- V-T6: the pattern 0x7FFFFFFFFFFE5E of 55 bits shows as 0xFFFFFE5E, 0x007FFFFF, 0 in CT_PAT0 to CT_PAT2. -/
theorem test_ct_pat :
    let s := withEnc { Common.reset with phase := .packing, code := (Vector.replicate 256 ⟨0, 0⟩).set 0 ⟨55, 0x7FFFFFFFFFFE5E⟩ }
    seeMove (.read .enc 0x054 32) s State.replies = some [.value 55] ∧
    seeMove (.read .enc 0x058 32) s State.replies = some [.value 0xFFFFFE5E] ∧
    seeMove (.read .enc 0x05C 32) s State.replies = some [.value 0x007FFFFF] ∧
    seeMove (.read .enc 0x060 32) s State.replies = some [.value 0] := by decide

/-- V-T3: NODE_INFO of the root (509, 97) is 0x8000C3FD. -/
theorem test_node_info :
    seeMove (.read .enc 0x07C 32) (withEnc { Common.reset with
      phase := .treeBuilt, nodeSel := 510
      node := (Vector.replicate 511 ⟨0, 0, 0⟩).set 510 ⟨1, 509, 97⟩ }) State.replies = some [.value 0x8000C3FD] := by
  decide +kernel

/-- 20_memory R101: a token with `eos` = 1 is EOS whatever its data. -/
theorem test_send_eos :
    seeMove (.send .dec 0xAB true) State.reset (fun t => t.dec.core.input) = some [.eos] := by decide

/-- 70_reset R368: a token moves from ENC's output to DEC's input. -/
theorem test_forward :
    seeMove .forward (withEnc { Common.reset with output := [.byte 7, .eos] }) (fun t =>
      (t.enc.core.output, t.dec.core.input)) = some ([.eos], [.byte 7]) := by decide

/-! ### Witnesses: for each statement with hypotheses, states and operands that meet them, clause by clause -/

/-- A machine whose agenda gives unit `u` the next move. -/
def moving (u : UnitId) (s : State) : State := { s with agenda := [.unit u] }

theorem test_witness_DecodeOfEncode : WellFormed .enc (.ePack 0xFF) = true ∧ WellFormed .dec .dRun = true := by decide
theorem test_witness_EncodeOfDecode :
    (∃ i, decode .enc 0x0000FF02 = .ok i) ∧ ∃ i, decode .dec 0x0000000F = .ok i :=
  ⟨⟨.eAccum 0xFF, by decide⟩, ⟨.dRun, by decide⟩⟩

/-- A busy unit with a legal word, with the agenda's head and with an empty agenda; an idle one likewise; and a host move. -/
theorem test_witness_StepRunsDecodedCommand :
    (∃ s : State, (s.core .enc).busy = true ∧ decode .enc (s.core .enc).cur = .ok .eNop ∧ s.agenda = [.unit .enc]) ∧
    (∃ s : State, (s.core .enc).busy = true ∧ decode .enc (s.core .enc).cur = .ok .eNop ∧ s.agenda = [] ∧ s.turn = .enc) ∧
    (∃ s : State, (s.core .dec).busy = false ∧ s.agenda = [.unit .dec]) ∧
    (∃ s : State, (s.core .enc).busy = false ∧ s.agenda = [] ∧ s.turn = .enc) ∧
    (∃ s : State, s.agenda = [.host .reset]) :=
  ⟨⟨moving .enc (withEnc (encIn .idle [])), by decide, by decide, rfl⟩,
   ⟨withEnc (encIn .idle []), by decide, by decide, rfl, rfl⟩,
   ⟨moving .dec State.reset, by decide, rfl⟩, ⟨State.reset, by decide, rfl, rfl⟩,
   ⟨{ State.reset with agenda := [.host .reset] }, rfl⟩⟩

/-- An illegal word with the unit's turn at the agenda's head, and with an empty agenda. -/
theorem test_witness_IllegalWordRaises :
    (∃ (s : State) (why : DecodeError), s.agenda = [.unit .enc] ∧ (s.core .enc).busy = true ∧
      decode .enc (s.core .enc).cur = .illegal why) ∧
    (∃ (s : State) (why : DecodeError), s.agenda = [] ∧ s.turn = .enc ∧ (s.core .enc).busy = true ∧
      decode .enc (s.core .enc).cur = .illegal why) :=
  ⟨⟨moving .enc (withEnc { encIn .idle [] with cur := 0x0000000B }), .unassignedOpcode, rfl, by decide, by decide⟩,
   ⟨withEnc { encIn .idle [] with cur := 0x0000000B }, .unassignedOpcode, rfl, rfl, by decide, by decide⟩⟩

theorem test_witness_CmdWrite :
    (∃ s : State, (s.core .enc).busy = true) ∧
    (∃ s : State, (s.core .enc).busy = false ∧ (s.core .enc).phase = .error ∧ (2 : Word) ≠ 0x00000000 ∧
      (2 : Word) ≠ 0x00000001 ∧ (2 : Word) ≠ 0x0000000E) ∧
    (∃ s : State, (s.core .enc).busy = false ∧ (s.core .enc).phase ≠ .error) ∧
    (∃ (s : State) (w : Word), (s.core .dec).busy = false ∧ (s.core .dec).phase = .error ∧ w = 0x0000000E) :=
  ⟨⟨withEnc (encIn .idle []), by decide⟩, ⟨withEnc { Common.reset with phase := .error }, by decide⟩,
   ⟨State.reset, by decide⟩, ⟨withDec { Common.reset with phase := .error }, 0x0000000E, by decide⟩⟩

theorem test_witness_SequenceOutsideItsPhases :
    runsInAnyPhase .eFinish = false ∧ (State.reset.core .enc).phase ∉ mayRunIn .eFinish ∧
    (State.reset.core .enc).begun = false ∧ runsInAnyPhase .dRun = false ∧
    ((withDec (encIn .done [])).core .dec).phase ∉ mayRunIn .dRun ∧ ((withDec (encIn .done [])).core .dec).begun = false := by
  decide

/-- Both ends of a command: completion, and error entry. -/
theorem test_witness_CompletionLeavesTablePhase :
    (∃ s t : State, (s.core .enc).busy = true ∧ exec .eNop s = .next t ∧ (t.core .enc).busy = false) ∧
    (∃ s t : State, (s.core .dec).busy = true ∧ exec .dRun s = .next t ∧ (t.core .dec).busy = false) :=
  ⟨⟨withEnc (encIn .idle []), _, by decide, rfl, by decide⟩, ⟨withDec (encIn .idle []), _, by decide, rfl, by decide⟩⟩

theorem test_witness_CommandsRaiseOnlyTheirCauses :
    (∃ s t : State, exec .eFinish s = .next t ∧ (s.core .enc).phase ≠ .error ∧ (t.core .enc).phase = .error) ∧
    (∃ s t : State, exec .dRun s = .next t ∧ (s.core .dec).phase ≠ .error ∧ (t.core .dec).phase = .error) :=
  ⟨⟨withEnc (encIn .idle []), _, rfl, by decide, by decide⟩, ⟨withDec (encIn .idle []), _, rfl, by decide, by decide⟩⟩

/-- ENC in ERROR with a NOP (word 0) running. -/
theorem test_witness_FirstErrorIsKept :
    ∃ s t : State, step s = .next t ∧ (s.core .enc).phase = .error ∧ (t.core .enc).phase = .error :=
  ⟨moving .enc (withEnc (encIn .error [])), _, rfl, by decide, by decide⟩

/-- ENC in ERROR with a CLEAR running, and DEC in ERROR when reset comes. -/
theorem test_witness_OnlyClearOrResetLeavesError :
    (∃ s t : State, step s = .next t ∧ (s.core .enc).err = true ∧ (t.core .enc).err = false) ∧
    (∃ s t : State, step s = .next t ∧ (s.core .dec).err = true ∧ (t.core .dec).err = false) :=
  ⟨⟨moving .enc (withEnc { encIn .error [] with cur := 1 }), _, rfl, by decide, by decide⟩,
   ⟨{ withDec (encIn .error []) with agenda := [.host .reset] }, _, rfl, by decide, by decide⟩⟩

/-- Words the clauses on illegal words speak of: OPC 0x00 in F0 and OPC 0x02 in F1, each with RSV not 0. -/
theorem test_witness_OnlyWord :
    ((0x80000000 : Word).extractLsb' 0 8 = 0x00 ∧ (0x80000000 : Word) ≠ 0x00000000) ∧
    ((0x00010002 : Word).extractLsb' 0 8 = 0x02 ∧ (0x00010002 : Word).extractLsb' 16 16 ≠ 0) := by decide

/-- E.ACCUM: out of phase, a full count, the largest count that is not full. -/
theorem test_witness_AccumCountsOneSymbol :
    State.reset.enc.core.phase ≠ .counting ∧
    (∃ s : State, s.enc.core.phase = .counting ∧ s.enc.core.count[(0xFF : Symbol).toNat] = 0xFFFFFFFF) ∧
    (∃ s : State, s.enc.core.phase = .counting ∧ s.enc.core.count[(0xFF : Symbol).toNat] = 0xFFFFFFFE ∧
      s.enc.core.count[(0xFF : Symbol).toNat] ≠ 0xFFFFFFFF) :=
  ⟨by decide, ⟨withEnc ((encIn .counting []).setCount 0xFF 0xFFFFFFFF), by decide +kernel⟩,
   ⟨withEnc ((encIn .counting []).setCount 0xFF 0xFFFFFFFE), by decide +kernel⟩⟩

theorem test_witness_AccumStreamCountsOneToken :
    State.reset.enc.core.phase ≠ .counting ∧
    (∃ s : State, s.enc.core.phase = .counting ∧ s.enc.core.input = []) ∧
    (∃ s : State, s.enc.core.phase = .counting ∧ s.enc.core.input = [.eos]) ∧
    (∃ s : State, s.enc.core.phase = .counting ∧ s.enc.core.input = [.byte 0xFF] ∧
      s.enc.core.count[(0xFF : Byte).toNat] ≠ 0xFFFFFFFF) ∧
    (∃ s : State, s.enc.core.phase = .counting ∧ s.enc.core.input = [.byte 0xFF] ∧
      s.enc.core.count[(0xFF : Byte).toNat] = 0xFFFFFFFF) :=
  ⟨by decide, ⟨withEnc (encIn .counting []), by decide⟩, ⟨withEnc (encIn .counting [.eos]), by decide⟩,
   ⟨withEnc (encIn .counting [.byte 0xFF]), by decide +kernel⟩,
   ⟨withEnc ((encIn .counting [.byte 0xFF]).setCount 0xFF 0xFFFFFFFF), by decide +kernel⟩⟩

/-- D.LOAD_HEADER: out of phase, first micro-step, empty input, EOS, and a byte at HDR_IDX 0 and 1023. -/
theorem test_witness_LoadHeaderTakesOneByte :
    State.reset.dec.core.phase ≠ .ready ∧
    (∃ s : State, s.dec.core.phase = .ready ∧ s.dec.core.begun = false) ∧
    (∃ s : State, s.dec.core.phase = .ready ∧ s.dec.core.begun = true ∧ s.dec.core.input = []) ∧
    (∃ s : State, s.dec.core.phase = .ready ∧ s.dec.core.begun = true ∧ s.dec.core.input = [.eos]) ∧
    (∃ s : State, s.dec.hdrIdx = 0 ∧ s.dec.core.phase = .ready ∧ s.dec.core.begun = true ∧ s.dec.core.input = [.byte 1]) ∧
    (∃ s : State, s.dec.hdrIdx = 1023 ∧ s.dec.core.phase = .ready ∧ s.dec.core.begun = true ∧
      s.dec.core.input = [.byte 1]) :=
  ⟨by decide, ⟨withDec (encIn .ready []), by decide⟩, ⟨withDec { encIn .ready [] with begun := true }, by decide⟩,
   ⟨withDec { encIn .ready [.eos] with begun := true }, by decide⟩,
   ⟨withDec { encIn .ready [.byte 1] with begun := true }, by decide⟩,
   ⟨{ State.reset with dec :=
      { Dec.reset with hdrIdx := 1023, core := { encIn .ready [.byte 1] with begun := true } } }, by decide⟩⟩

theorem test_witness_BuildTreeWritesNode :
    (withEnc (encIn .counting [])).enc.core.phase = .counting ∧ State.reset.enc.core.phase ≠ .counting ∧
    (withDec (encIn .headerLoaded [])).dec.core.phase = .headerLoaded ∧ State.reset.dec.core.phase ≠ .headerLoaded := by
  decide

theorem test_witness_GenCodesWritesCodeTable :
    (withEnc (encIn .treeBuilt [])).enc.core.phase = .treeBuilt ∧ State.reset.enc.core.phase ≠ .treeBuilt ∧
    (withDec (encIn .treeBuilt [])).dec.core.phase = .treeBuilt ∧ State.reset.dec.core.phase ≠ .treeBuilt := by
  decide

theorem test_witness_EmitHeaderWritesCountsAndTbc :
    (withEnc (encIn .codesReady [])).enc.core.phase = .codesReady ∧ State.reset.enc.core.phase ≠ .codesReady := by decide

/-- `Append` where its two cases meet: 8 and 9 pending bits. -/
theorem test_witness_AppendFlushesAboveEightBits :
    (∃ (e : Enc) (k : Code), e.pkPend.toNat + k.len.toNat = 8) ∧ ∃ (e : Enc) (k : Code), e.pkPend.toNat + k.len.toNat = 9 :=
  ⟨⟨{ Enc.reset with pkPend := 7 }, ⟨1, 0⟩, by decide⟩, ⟨{ Enc.reset with pkPend := 8 }, ⟨1, 0⟩, by decide⟩⟩

theorem test_witness_PackAppendsOneCode :
    State.reset.enc.core.phase ≠ .headerSent ∧ State.reset.enc.core.phase ≠ .packing ∧
    (withEnc (encIn .headerSent [])).enc.core.phase = .headerSent ∧
    (withEnc (encIn .packing [])).enc.core.phase = .packing := by decide

theorem test_witness_PackStreamAppendsOneToken :
    (State.reset.enc.core.phase ≠ .headerSent ∧ State.reset.enc.core.phase ≠ .packing) ∧
    (∃ s : State, s.enc.core.phase = .headerSent ∧ s.enc.core.input = []) ∧
    (∃ s : State, s.enc.core.phase = .packing ∧ s.enc.core.input = [.eos]) ∧
    (∃ s : State, s.enc.core.phase = .packing ∧ s.enc.core.input = [.byte 0xFF, .eos]) :=
  ⟨by decide, ⟨withEnc (encIn .headerSent []), by decide⟩, ⟨withEnc (encIn .packing [.eos]), by decide⟩,
   ⟨withEnc (encIn .packing [.byte 0xFF, .eos]), by decide⟩⟩

/-- E.FINISH: totals that differ, PK_PEND 1 and 8, and nothing pending. -/
theorem test_witness_FinishFlushesOrRaises :
    (∃ s : State, s.enc.core.phase = .packing ∧ s.enc.packedBits ≠ s.enc.core.totalBits) ∧
    (∃ s : State, s.enc.core.phase = .packing ∧ s.enc.packedBits = s.enc.core.totalBits ∧ s.enc.pkPend.toNat = 1) ∧
    (∃ s : State, s.enc.core.phase = .packing ∧ s.enc.packedBits = s.enc.core.totalBits ∧ s.enc.pkPend.toNat = 8) ∧
    (∃ s : State, s.enc.core.phase = .headerSent ∧ s.enc.packedBits = s.enc.core.totalBits ∧ s.enc.pkPend = 0) :=
  ⟨⟨withEnc { encIn .packing [] with totalBits := 1 }, by decide⟩,
   ⟨{ State.reset with enc := { Enc.reset with core := encIn .packing [], pkPend := 1 } }, by decide⟩,
   ⟨{ State.reset with enc := { Enc.reset with core := encIn .packing [], pkPend := 8 } }, by decide⟩,
   ⟨withEnc (encIn .headerSent []), by decide⟩⟩

theorem test_witness_PrepareRunsThreeStages :
    (∃ s : State, s.enc.core.begun = false ∧ s.enc.core.phase ≠ .counting) ∧
    (∃ s : State, s.enc.core.begun = false ∧ s.enc.core.phase = .counting) ∧
    (∃ s : State, s.enc.core.begun = true ∧ s.enc.core.stage = 1 ∧ s.enc.core.phase = .treeBuilt) ∧
    (∃ s : State, s.enc.core.begun = true ∧ s.enc.core.stage = 2 ∧ s.enc.core.phase = .codesReady) :=
  ⟨⟨State.reset, by decide⟩, ⟨withEnc (encIn .counting []), by decide⟩,
   ⟨withEnc { encIn .treeBuilt [] with begun := true, stage := 1 }, by decide⟩,
   ⟨withEnc { encIn .codesReady [] with begun := true, stage := 2 }, by decide⟩⟩

theorem test_witness_DrainDiscardsOneToken :
    (∃ s : State, s.enc.core.input = [] ∧ s.dec.core.input = []) ∧ (∃ s : State, s.enc.core.input = [.eos]) ∧
    (∃ s : State, s.enc.core.input = [.byte 0xFF]) ∧ (∃ s : State, s.dec.core.input = [.eos]) ∧
    (∃ s : State, s.dec.core.input = [.byte 0xFF]) :=
  ⟨⟨State.reset, by decide⟩, ⟨withEnc (encIn .idle [.eos]), by decide⟩, ⟨withEnc (encIn .idle [.byte 0xFF]), by decide⟩,
   ⟨withDec (encIn .idle [.eos]), by decide⟩, ⟨withDec (encIn .idle [.byte 0xFF]), by decide⟩⟩

theorem test_witness_CheckTbcComparesTheStoredByte :
    State.reset.dec.core.phase ≠ .codesReady ∧
    (∃ s : State, s.dec.core.phase = .codesReady ∧ s.dec.core.input = []) ∧
    (∃ s : State, s.dec.core.phase = .codesReady ∧ s.dec.core.input = [.eos]) ∧
    (∃ s : State, s.dec.core.phase = .codesReady ∧ s.dec.core.input = [.byte 0x18] ∧
      (0x18 : Byte).toNat ≠ s.dec.core.calcTbc.toNat) ∧
    (∃ s : State, s.dec.core.phase = .codesReady ∧ s.dec.core.input = [.byte 8] ∧
      (8 : Byte).toNat = s.dec.core.calcTbc.toNat) :=
  ⟨by decide, ⟨withDec (encIn .codesReady []), by decide⟩, ⟨withDec (encIn .codesReady [.eos]), by decide⟩,
   ⟨withDec { encIn .codesReady [.byte 0x18] with calcTbc := 8 }, by decide⟩,
   ⟨withDec { encIn .codesReady [.byte 8] with calcTbc := 8 }, by decide⟩⟩

/-- The walk's cases: out of phase; a buffered bit to an inner node and to a leaf; a byte to load, the last and not the last;
the end at the root and inside; and both holds. -/
theorem test_witness_WalkDecodesOneSymbol :
    State.reset.dec.core.phase ≠ .decoding ∧
    (∃ s : State, s.dec.core.phase = .decoding ∧ HasBit s.dec s.dec ∧ 255 < (childTaken s.dec).toNat) ∧
    (∃ s : State, s.dec.core.phase = .decoding ∧ HasBit s.dec s.dec ∧ (childTaken s.dec).toNat ≤ 255) ∧
    (∃ (s : State) (d : Dec), s.dec.core.phase = .decoding ∧ s.dec.brCnt = 0 ∧ HasBit s.dec d ∧ d.brLast = true) ∧
    (∃ (s : State) (d : Dec), s.dec.core.phase = .decoding ∧ s.dec.brCnt = 0 ∧ HasBit s.dec d ∧ d.brLast = false) ∧
    (∃ s : State, s.dec.core.phase = .decoding ∧ s.dec.brCnt = 0 ∧ s.dec.core.input = [.eos] ∧ s.dec.walkNode = 510) ∧
    (∃ s : State, s.dec.core.phase = .decoding ∧ s.dec.brCnt = 0 ∧ s.dec.core.input = [.eos] ∧ s.dec.walkNode ≠ 510) ∧
    (∃ s : State, s.dec.core.phase = .decoding ∧ s.dec.brCnt = 0 ∧ s.dec.core.input = []) ∧
    (∃ s : State, s.dec.core.phase = .decoding ∧ s.dec.brCnt = 0 ∧ s.dec.core.input = [.byte 0xC0]) :=
  ⟨by decide,
   ⟨{ State.reset with dec := { abDec [] with brBuf := 1, brCnt := 1 } }, rfl, .inl ⟨by decide, rfl⟩, by decide +kernel⟩,
   ⟨{ State.reset with dec := { abDec [] with brBuf := 0, brCnt := 1 } }, rfl, .inl ⟨by decide, rfl⟩, by decide +kernel⟩,
   ⟨{ State.reset with dec := abDec [.byte 0xC0, .eos] }, _, rfl, rfl, .inr ⟨rfl, 0xC0, .eos, [], rfl, rfl⟩, by decide⟩,
   ⟨{ State.reset with dec := abDec [.byte 0xC0, .byte 1] }, _, rfl, rfl, .inr ⟨rfl, 0xC0, .byte 1, [], rfl, rfl⟩,
    by decide⟩,
   ⟨{ State.reset with dec := abDec [.eos] }, rfl, rfl, rfl, rfl⟩,
   ⟨{ State.reset with dec := { abDec [.eos] with walkNode := 509 } }, rfl, rfl, rfl, by decide⟩,
   ⟨{ State.reset with dec := abDec [] }, rfl, rfl, rfl⟩, ⟨{ State.reset with dec := abDec [.byte 0xC0] }, rfl, rfl, rfl⟩⟩

/-- D.DECODE_STREAM has the walk's hypotheses without the split at a leaf. -/
theorem test_witness_DecodeStreamGoesOnAfterASymbol :
    State.reset.dec.core.phase ≠ .decoding ∧
    (∃ s : State, s.dec.core.phase = .decoding ∧ HasBit s.dec s.dec ∧ (childTaken s.dec).toNat ≤ 255) ∧
    (∃ s : State, s.dec.core.phase = .decoding ∧ s.dec.brCnt = 0 ∧ s.dec.core.input = [.eos] ∧ s.dec.walkNode = 510) :=
  ⟨by decide,
   ⟨{ State.reset with dec := { abDec [] with brBuf := 0, brCnt := 1 } }, rfl, .inl ⟨by decide, rfl⟩, by decide +kernel⟩,
   ⟨{ State.reset with dec := abDec [.eos] }, rfl, rfl, rfl, rfl⟩⟩

/-- D.RUN, stage by stage; STAGE 0 with HDR_IDX 0 and 1023, at EOS and without a token; STAGE 3 with the byte equal, different,
at EOS and without a token. -/
theorem test_witness_RunHandsOverAndCompletes :
    (∃ s : State, s.dec.core.begun = false ∧ s.dec.core.phase ≠ .ready) ∧
    (∃ s : State, s.dec.core.begun = false ∧ s.dec.core.phase = .ready) ∧
    (∃ s : State, s.dec.hdrIdx = 0 ∧ s.dec.core.begun = true ∧ s.dec.core.stage = 0 ∧ s.dec.core.phase = .ready ∧
      s.dec.core.input = [.byte 1]) ∧
    (∃ s : State, s.dec.hdrIdx = 1023 ∧ s.dec.core.begun = true ∧ s.dec.core.stage = 0 ∧ s.dec.core.phase = .ready ∧
      s.dec.core.input = [.byte 1]) ∧
    (∃ s : State, s.dec.core.begun = true ∧ s.dec.core.stage = 1 ∧ s.dec.core.phase = .headerLoaded) ∧
    (∃ s : State, s.dec.core.begun = true ∧ s.dec.core.stage = 2 ∧ s.dec.core.phase = .treeBuilt) ∧
    (∃ s : State, s.dec.core.begun = true ∧ s.dec.core.stage = 3 ∧ s.dec.core.phase = .codesReady ∧
      s.dec.core.input = [.byte 8] ∧ (8 : Byte).toNat = s.dec.core.calcTbc.toNat) ∧
    (∃ s : State, s.dec.core.begun = true ∧ s.dec.core.stage = 4 ∧ s.dec.core.phase = .decoding ∧ s.dec.brCnt = 0 ∧
      s.dec.core.input = [.eos] ∧ s.dec.walkNode = 510) ∧
    (∃ s : State, s.dec.core.begun = true ∧ s.dec.core.stage = 0 ∧ s.dec.core.phase = .ready ∧ s.dec.core.input = [.eos]) ∧
    (∃ s : State, s.dec.core.begun = true ∧ s.dec.core.stage = 0 ∧ s.dec.core.phase = .ready ∧ s.dec.core.input = []) ∧
    (∃ s : State, s.dec.core.begun = true ∧ s.dec.core.stage = 3 ∧ s.dec.core.phase = .codesReady ∧
      s.dec.core.input = [.byte 0x18] ∧ (0x18 : Byte).toNat ≠ s.dec.core.calcTbc.toNat) ∧
    (∃ s : State, s.dec.core.begun = true ∧ s.dec.core.stage = 3 ∧ s.dec.core.phase = .codesReady ∧
      s.dec.core.input = [.eos]) ∧
    (∃ s : State, s.dec.core.begun = true ∧ s.dec.core.stage = 3 ∧ s.dec.core.phase = .codesReady ∧
      s.dec.core.input = []) :=
  ⟨⟨State.reset, by decide⟩, ⟨withDec (encIn .ready []), by decide⟩,
   ⟨withDec { encIn .ready [.byte 1] with begun := true }, by decide⟩,
   ⟨{ State.reset with dec :=
      { Dec.reset with hdrIdx := 1023, core := { encIn .ready [.byte 1] with begun := true } } }, by decide⟩,
   ⟨withDec { encIn .headerLoaded [] with begun := true, stage := 1 }, by decide⟩,
   ⟨withDec { encIn .treeBuilt [] with begun := true, stage := 2 }, by decide⟩,
   ⟨withDec { encIn .codesReady [.byte 8] with begun := true, stage := 3, calcTbc := 8 }, by decide⟩,
   ⟨withDec { encIn .decoding [.eos] with begun := true, stage := 4 }, by decide⟩,
   ⟨withDec { encIn .ready [.eos] with begun := true }, by decide⟩,
   ⟨withDec { encIn .ready [] with begun := true }, by decide⟩,
   ⟨withDec { encIn .codesReady [.byte 0x18] with begun := true, stage := 3, calcTbc := 8 }, by decide⟩,
   ⟨withDec { encIn .codesReady [.eos] with begun := true, stage := 3 }, by decide⟩,
   ⟨withDec { encIn .codesReady [] with begun := true, stage := 3 }, by decide⟩⟩

theorem test_witness_UnitsShareNothing : ∃ s' : State, s'.enc = State.reset.enc ∧ s' ≠ State.reset :=
  ⟨{ State.reset with turn := .dec }, rfl, fun h => UnitId.noConfusion (congrArg State.turn h)⟩

/-- A next state of a command of each unit; the same serves the statement on tokens. -/
theorem test_witness_CommandsFrame :
    (∃ s t : State, exec .eNop s = .next t ∧ Instr.eNop.unit = .enc) ∧
    (∃ s t : State, exec .dDrain s = .next t ∧ Instr.dDrain.unit = .dec) :=
  ⟨⟨State.reset, _, rfl, rfl⟩, ⟨withDec (encIn .idle [.byte 1]), _, rfl, rfl⟩⟩

theorem test_witness_MicroStepTakesAtMostOneToken :
    ∃ s t : State, exec .dDrain s = .next t ∧ s.dec.core.input = [.byte 1] ∧ t.dec.core.input = [] :=
  ⟨withDec (encIn .idle [.byte 1]), _, rfl, rfl, rfl⟩

/-- IRQ: a STATUS word with bit 1 set, an IRQ_EN word of zeros, the phases CLEAR completes in. -/
theorem test_witness_IrqFollowsStatusAndEnables :
    (0x00000002 : Word).getLsbD 1 = true ∧ (0 : Word).getLsbD 0 = false ∧ (0 : Word).getLsbD 1 = false ∧
    Phase.counting ≠ .error ∧ Phase.ready ≠ .error := by decide

/-- The index bounds of the tree and code statements: 256 and 510, 509, 0 and 255. -/
theorem test_witness_tree_indices :
    (256 ≤ 256 ∧ 256 < 511) ∧ (256 ≤ 510 ∧ 510 < 511) ∧ (256 ≤ 509 ∧ 509 < 510) ∧ 0 < 256 ∧ 255 < 256 := by decide

/-- A code is a prefix of itself. -/
theorem test_witness_CodesArePrefixFreeAndComplete :
    codeBits (codeTable (Vector.replicate 256 0))[0] <+: codeBits (codeTable (Vector.replicate 256 0))[0] :=
  List.prefix_refl _

theorem test_witness_AccumStreamCountsTheInput :
    ∃ s : State, s.enc.core.phase = .counting ∧ s.enc.core.input = [0x61, 0x62].map .byte ++ .eos :: [] ∧
      ∀ b : Byte, s.enc.core.count[b.toNat].toNat + [0x61, 0x62].count b < 2 ^ 32 :=
  ⟨withEnc (encIn .counting [.byte 0x61, .byte 0x62, .eos]), rfl, rfl, fun b => by
    have h : (withEnc (encIn .counting [.byte 0x61, .byte 0x62, .eos])).enc.core.count[b.toNat] = 0 := by
      simp [withEnc, encIn, Common.reset]
    have hl : ([0x61, 0x62] : List Byte).count b ≤ 2 := List.count_le_length
    rw [h]
    exact Nat.lt_of_le_of_lt (Nat.add_le_add (Nat.le_refl _) hl) (by decide)⟩

/-- From HEADER_SENT with an empty packer, and from PACKING with 8 bits pending. -/
theorem test_witness_PackStreamEmitsTheCodeBits :
    (∃ s : State, s.enc.core.phase = .headerSent ∧ s.enc.core.input = [0x61].map .byte ++ .eos :: [] ∧
      s.enc.pkPend.toNat ≤ 8 ∧ s.enc.pkAcc.toNat < 2 ^ s.enc.pkPend.toNat ∧
      ∀ b : Byte, s.enc.core.code[b.toNat].pat.toNat < 2 ^ s.enc.core.code[b.toNat].len.toNat) ∧
    (∃ s : State, s.enc.core.phase = .packing ∧ s.enc.core.input = [0x61].map .byte ++ .eos :: [] ∧
      s.enc.pkPend.toNat = 8 ∧ s.enc.pkAcc.toNat < 2 ^ s.enc.pkPend.toNat ∧
      ∀ b : Byte, s.enc.core.code[b.toNat].pat.toNat < 2 ^ s.enc.core.code[b.toNat].len.toNat) :=
  ⟨⟨withEnc { encIn .headerSent [.byte 0x61, .eos] with code := Vector.replicate 256 ⟨1, 1⟩ }, rfl, rfl, by decide,
    by decide, fun b => by simp [withEnc]⟩,
   ⟨{ State.reset with enc := { Enc.reset with
        core := { encIn .packing [.byte 0x61, .eos] with code := Vector.replicate 256 ⟨1, 1⟩ }, pkPend := 8, pkAcc := 0xFF } },
    rfl, rfl, by decide, by decide, fun b => by simp⟩⟩

theorem test_witness_EncoderRunWritesEncodedFile :
    ∃ s : State, (∀ b : Byte, [0x61].count b < 2 ^ 32) ∧ s.enc.core.phase = .counting ∧
      s.enc.core.count = Vector.replicate 256 0 ∧ s.enc.pkAcc = 0 ∧ s.enc.pkPend = 0 ∧ s.enc.packedBits = 0 ∧
      s.enc.core.input = [0x61].map .byte ++ .eos :: ([0x61].map .byte ++ .eos :: []) :=
  ⟨withEnc (encIn .counting [.byte 0x61, .eos, .byte 0x61, .eos]),
    fun b => Nat.lt_of_le_of_lt (List.count_le_length (a := b) (l := [0x61])) (by decide), rfl, rfl, rfl, rfl, rfl, rfl⟩

/-- The input of the machine built for any token list. -/
theorem withDec_input (p : Phase) (l : List Token) :
    (withDec (encIn p l)).dec.core.phase = p ∧ (withDec (encIn p l)).dec.core.begun = false ∧
    (withDec (encIn p l)).dec.core.input = l := ⟨rfl, rfl, rfl⟩

theorem test_witness_RunDecodesEncodedFile :
    ∃ (x : List Byte) (s : State), (∀ b : Byte, x.count b < 2 ^ 32) ∧ s.dec.core.phase = .ready ∧
      s.dec.core.begun = false ∧ s.dec.core.input = (encodeFile x).map .byte ++ .eos :: [] := by
  generalize hf : (encodeFile [0x61]).map Token.byte ++ Token.eos :: [] = l
  refine ⟨[0x61], withDec (encIn .ready l), fun b => ?_, ?_⟩
  · exact Nat.lt_of_le_of_lt (List.count_le_length (a := b) (l := [0x61])) (by decide)
  · rw [hf]
    exact withDec_input .ready l

/-- A byte sequence that is no encoded file, at D.RUN's first micro-step. -/
theorem test_witness_RunDecodesAnyFile :
    ∃ (f : List Byte) (s : State), s.dec.core.phase = .ready ∧ s.dec.core.begun = false ∧
      s.dec.core.input = f.map .byte ++ .eos :: [] :=
  ⟨[1, 2], withDec (encIn .ready [.byte 1, .byte 2, .eos]), rfl, rfl, rfl⟩

/-- The empty file, files of 1023 and of 1024 bytes, and a header of zero counts with the TBC byte 0. -/
theorem test_witness_CorruptFilesAreDetected :
    (∃ s : State, ([] : List Byte).length < 1024 ∧ s.dec.core.phase = .ready ∧ s.dec.core.begun = false ∧
      s.dec.core.input = ([] : List Byte).map .byte ++ .eos :: []) ∧
    (∃ s : State, (List.replicate 1023 (0 : Byte)).length < 1024 ∧ s.dec.core.phase = .ready ∧
      s.dec.core.begun = false ∧ s.dec.core.input = (List.replicate 1023 (0 : Byte)).map .byte ++ .eos :: []) ∧
    (∃ s : State, (List.replicate 1024 (0 : Byte)).length = 1024 ∧ s.dec.core.phase = .ready ∧
      s.dec.core.begun = false ∧ s.dec.core.input = (List.replicate 1024 (0 : Byte)).map .byte ++ .eos :: []) ∧
    (∃ (count : Vector (BitVec 32) 256) (v : Byte) (s : State), s.dec.core.phase = .ready ∧ s.dec.core.begun = false ∧
      s.dec.core.input = (headerBytes count).map .byte ++ .byte v :: [.eos] ∧
      v.toNat ≠ (tbcOf (totalBitsOf count (codeTable count))).toNat) := by
  refine ⟨⟨withDec (encIn .ready [.eos]), by decide, rfl, rfl, rfl⟩,
   ⟨withDec (encIn .ready ((List.replicate 1023 (0 : Byte)).map .byte ++ .eos :: [])),
    by rw [List.length_replicate]; decide, rfl, rfl, rfl⟩,
   ⟨withDec (encIn .ready ((List.replicate 1024 (0 : Byte)).map .byte ++ .eos :: [])),
    by rw [List.length_replicate], rfl, rfl, rfl⟩, ?_⟩
  generalize hl : (headerBytes (Vector.replicate 256 0)).map Token.byte ++ Token.byte 0 :: [Token.eos] = l
  exact ⟨Vector.replicate 256 0, 0, withDec (encIn .ready l), rfl, rfl, by rw [hl]; rfl, fun h => tbcOf_ne_zero _ h.symm⟩

/-- The invariants are met at reset, and reset has a next state. -/
theorem test_witness_StepKeepsStatusInvariant : ∃ s t : State, StatusInv s ∧ step s = .next t :=
  ⟨State.reset, _, ⟨⟨rfl, by decide, by decide, .inl rfl, by decide⟩, ⟨rfl, by decide, by decide, .inl rfl, by decide⟩⟩, rfl⟩

theorem test_witness_StepKeepsDataInvariant : ∃ s t : State, DataInv s ∧ step s = .next t := by
  refine ⟨State.reset, _, ⟨⟨by decide, by decide, fun h => ?_⟩, ⟨fun h => ?_, fun h => ?_⟩,
    ⟨by decide, by decide, by decide, by decide⟩, ⟨fun h => ?_, fun h => ?_⟩, ⟨by decide, fun h => ?_⟩⟩, rfl⟩
  all_goals exact absurd h (by decide)

theorem test_witness_IllegalAccessIsABusError : (8 : Nat) ≠ 32 ∧ (0xFFE : BitVec 12).toNat % 4 ≠ 0 := by decide

/-- Offsets at which a write is ignored, at the edges of the bank. -/
theorem test_witness_HostWritesActAtFourRegisters :
    ((0x000 : BitVec 12).toNat % 4 = 0 ∧ (0x000 : BitVec 12) ∉ [0x008, 0x00C, 0x014, 0x050, 0x078]) ∧
    ((0xFFC : BitVec 12).toNat % 4 = 0 ∧ (0xFFC : BitVec 12) ∉ [0x008, 0x00C, 0x014, 0x050, 0x078]) := by decide

/-- A busy unit with offsets 0x018, 0x084, 0x400 and 0x7FC; idle units with the codes not valid, the tree not valid and
NODE_SEL 510, and COUNT unspecified in IDLE and in ERROR. -/
theorem test_witness_UnspecifiedReadsAreDraws :
    (((withEnc (encIn .idle [])).core .enc).busy = true ∧ (0x018 : BitVec 12).toNat % 4 = 0 ∧
      (0x084 : BitVec 12).toNat % 4 = 0 ∧ (0x400 ≤ (0x400 : BitVec 12).toNat ∧ (0x400 : BitVec 12).toNat % 4 = 0) ∧
      ((0x7FC : BitVec 12).toNat ≤ 0x7FC ∧ (0x7FC : BitVec 12).toNat % 4 = 0)) ∧
    (∃ s : State, (s.core .enc).busy = false ∧ codesValid .enc (s.core .enc).phase = false ∧
      (0x074 : BitVec 12).toNat ≤ 0x074 ∧ (0x074 : BitVec 12).toNat % 4 = 0) ∧
    (∃ s : State, (s.core .dec).busy = false ∧ treeValid .dec (s.core .dec).phase = false ∧
      (s.core .dec).nodeSel.toNat = 510 ∧ (0x084 : BitVec 12).toNat % 4 = 0) ∧
    (∃ s : State, (s.core .enc).busy = false ∧ (s.core .enc).phase = .idle) ∧
    (∃ s : State, (s.core .enc).busy = false ∧ (s.core .enc).phase = .error ∧ (s.core .enc).countInit = false) :=
  ⟨by decide, ⟨withEnc { Common.reset with phase := .treeBuilt }, by decide⟩,
   ⟨withDec { Common.reset with phase := .headerLoaded, nodeSel := 510 }, by decide⟩, ⟨State.reset, by decide⟩,
   ⟨withEnc { Common.reset with phase := .error }, by decide⟩⟩

/-- An output stream with a token and an empty one, and a bus address in neither bank. -/
theorem test_witness_StreamsAreFifoAndBanksSitAtTheirBases :
    (∃ s : State, (s.core .enc).output = .byte 1 :: [.eos]) ∧ (∃ s : State, (s.core .dec).output = []) ∧
    (∃ addr : Nat, (addr < Config.encBase ∨ Config.encBase + 4096 ≤ addr) ∧
      (addr < Config.decBase ∨ Config.decBase + 4096 ≤ addr)) :=
  ⟨⟨withEnc { Common.reset with output := [.byte 1, .eos] }, rfl⟩, ⟨State.reset, rfl⟩,
   ⟨Config.encBase + Config.decBase + 4096, .inr (by omega), .inr (by omega)⟩⟩

/-- 00_scope R12, 20_memory R97: a read of ID at the decoder's base and offset 0. -/
theorem test_bus_read_id :
    seeMove (.busRead Config.decBase 32) State.reset State.replies = some [.value 0x48444543] := by
  have h : hostMove (.busRead Config.decBase 32) State.reset = hostMove (.read .dec 0 32) State.reset := by
    have hb : bankAt Config.decBase = some (.dec, 0) := bankAt_dec 0
    simp only [hostMove, busMove, hb]
  rw [seeMove, h]; decide

/-- An idle unit, and reserved offsets at the edges of their ranges. -/
theorem test_witness_RegisterReads :
    (State.reset.core .enc).busy = false ∧ (0x088 ≤ (0x088 : BitVec 12).toNat ∧ (0x3FC : BitVec 12).toNat ≤ 0x3FC) ∧
    (0x800 ≤ (0x800 : BitVec 12).toNat ∧ (0xFFC : BitVec 12).toNat % 4 = 0) := by decide

/-- The windows: codes valid; NODE_SEL = 511; a valid tree with NODE_SEL 255, 256 and 510; counts specified. -/
theorem test_witness_ReadbackWindowsShowTables :
    (∃ s : State, (s.core .enc).busy = false ∧ codesValid .enc (s.core .enc).phase = true ∧
      (s.core .enc).nodeSel.toNat = 511) ∧
    (∃ s : State, (s.core .dec).busy = false ∧ treeValid .dec (s.core .dec).phase = true ∧
      (s.core .dec).nodeSel.toNat = 255) ∧
    (∃ s : State, (s.core .dec).busy = false ∧ treeValid .dec (s.core .dec).phase = true ∧
      (s.core .dec).nodeSel.toNat = 256) ∧
    (∃ s : State, (s.core .dec).busy = false ∧ treeValid .dec (s.core .dec).phase = true ∧
      (s.core .dec).nodeSel.toNat = 510) ∧
    (∃ s : State, (s.core .enc).busy = false ∧ (s.core .enc).phase ≠ .idle ∧ (s.core .enc).phase ≠ .error) ∧
    (∃ s : State, (s.core .enc).busy = false ∧ (s.core .enc).phase = .error ∧ (s.core .enc).countInit = true) :=
  ⟨⟨withEnc { Common.reset with phase := .finished, nodeSel := 511 }, by decide⟩,
   ⟨withDec { Common.reset with phase := .done, nodeSel := 255 }, by decide⟩,
   ⟨withDec { Common.reset with phase := .done, nodeSel := 256 }, by decide⟩,
   ⟨withDec { Common.reset with phase := .done, nodeSel := 510 }, by decide⟩,
   ⟨withEnc { Common.reset with phase := .counting, countInit := true }, by decide⟩,
   ⟨withEnc { Common.reset with phase := .error, countInit := true }, by decide⟩⟩

end Sys2Proof.Tests
end

section
/-! SUPPORT. What a unit does when it has the move, as a function of that unit alone (10_state R30), and what one step can do to
the two units. -/

namespace Sys2Proof.Machine

/-! ### The body of a command -/

/-- The body of an ENC command, read from ENC alone; a DEC command has none in ENC. -/
def Enc.body (e : Enc) : Instr → Body Enc
  | .eNop => .fin e e.core.phase
  | .eClear => .fin { core := e.core.clearBody, pkAcc := 0, pkPend := 0, packedBits := 0 } .counting
  | .eAccum sym => e.inPhase [.counting] (e.countOne sym fun e' => .fin e' .counting)
  | .eAccumStream => e.inPhase [.counting] e.accumStreamBody
  | .eBuildTree => e.buildTreeBody
  | .eGenCodes => e.genCodesBody
  | .eEmitHeader => e.emitHeaderBody
  | .ePack sym => e.inPhase [.headerSent, .packing] (.fin (e.append (e.core.codeAt sym)) .packing)
  | .ePackStream => e.inPhase [.headerSent, .packing] e.packStreamBody
  | .eFinish => e.inPhase [.headerSent, .packing] e.finishBody
  | .ePrepare => e.prepareBody
  | .eDrain => e.core.drainBody.lift e.withCore
  | .dNop | .dClear | .dLoadHeader | .dBuildTree | .dGenCodes | .dCheckTbc | .dWalk | .dDecodeStream | .dDrain
  | .dRun => .hold

/-- The body of a DEC command, read from DEC alone; an ENC command has none in DEC. -/
def Dec.body (d : Dec) : Instr → Body Dec
  | .dNop => .fin d d.core.phase
  | .dClear => .fin { (d.withCore d.core.clearBody).rewind with consumedBits := 0, eop := false } .ready
  | .dLoadHeader => d.inPhase [.ready] d.loadHeaderBody
  | .dBuildTree => d.buildTreeBody
  | .dGenCodes => d.genCodesBody
  | .dCheckTbc => d.checkTbcBody
  | .dWalk => d.inPhase [.decoding] d.walkBody
  | .dDecodeStream => d.inPhase [.decoding] d.decodeStreamBody
  | .dDrain => d.core.drainBody.lift d.withCore
  | .dRun => d.runBody
  | .eNop | .eClear | .eAccum _ | .eAccumStream | .eBuildTree | .eGenCodes | .eEmitHeader | .ePack _ | .ePackStream
  | .eFinish | .ePrepare | .eDrain => .hold

/-- A command of ENC's map runs its body on ENC. -/
theorem exec_eq_runEnc_body (i : Instr) (s : State) (h : i.unit = .enc) : exec i s = runEnc s (s.enc.body i) := by
  cases i
  case dNop | dClear | dLoadHeader | dBuildTree | dGenCodes | dCheckTbc | dWalk | dDecodeStream | dDrain | dRun => cases h
  all_goals rfl

/-- A command of DEC's map runs its body on DEC. -/
theorem exec_eq_runDec_body (i : Instr) (s : State) (h : i.unit = .dec) : exec i s = runDec s (s.dec.body i) := by
  cases i
  case eNop | eClear | eAccum | eAccumStream | eBuildTree | eGenCodes | eEmitHeader | ePack | ePackStream | eFinish | ePrepare
    | eDrain => cases h
  all_goals rfl

/-! ### A unit's move -/

/-- ENC after its move (40_command_model R150, R156). -/
def Enc.move (e : Enc) : Enc :=
  if e.core.busy then
    match decode .enc e.core.cur with
    | .ok i => e.after (e.body i)
    | .illegal _ => e.raise .illegalCmd
  else e

/-- DEC after its move (40_command_model R150, R156). -/
def Dec.move (d : Dec) : Dec :=
  if d.core.busy then
    match decode .dec d.core.cur with
    | .ok i => d.after (d.body i)
    | .illegal _ => d.raise .illegalCmd
  else d

/-- Everything a move of ENC can do. -/
theorem Enc.move_cases (e : Enc) :
    (e.core.busy = false ∧ e.move = e) ∨
    (∃ why, e.core.busy = true ∧ decode .enc e.core.cur = .illegal why ∧ e.move = e.raise .illegalCmd) ∨
    (∃ i, e.core.busy = true ∧ decode .enc e.core.cur = .ok i ∧ i.unit = .enc ∧ e.move = e.after (e.body i)) := by
  cases hb : e.core.busy with
  | false => exact .inl ⟨rfl, by simp [Enc.move, hb]⟩
  | true =>
    cases hd : decode .enc e.core.cur with
    | illegal why => exact .inr (.inl ⟨why, rfl, rfl, by simp [Enc.move, hb, hd]⟩)
    | ok i => exact .inr (.inr ⟨i, rfl, rfl, decode_unit _ _ _ hd, by simp [Enc.move, hb, hd]⟩)

/-- Everything a move of DEC can do. -/
theorem Dec.move_cases (d : Dec) :
    (d.core.busy = false ∧ d.move = d) ∨
    (∃ why, d.core.busy = true ∧ decode .dec d.core.cur = .illegal why ∧ d.move = d.raise .illegalCmd) ∨
    (∃ i, d.core.busy = true ∧ decode .dec d.core.cur = .ok i ∧ i.unit = .dec ∧ d.move = d.after (d.body i)) := by
  cases hb : d.core.busy with
  | false => exact .inl ⟨rfl, by simp [Dec.move, hb]⟩
  | true =>
    cases hd : decode .dec d.core.cur with
    | illegal why => exact .inr (.inl ⟨why, rfl, rfl, by simp [Dec.move, hb, hd]⟩)
    | ok i => exact .inr (.inr ⟨i, rfl, rfl, decode_unit _ _ _ hd, by simp [Dec.move, hb, hd]⟩)

/-- ENC's move reads and writes ENC alone (10_state R30). -/
theorem unitStep_enc (s : State) : unitStep .enc s = .next { s with enc := s.enc.move } := by
  rcases s.enc.move_cases with ⟨hb, hm⟩ | ⟨why, hb, hd, hm⟩ | ⟨i, hb, hd, hu, hm⟩
  · rw [unitStep, fetch_idle .enc s hb, hm]
  · rw [unitStep, fetch_illegal .enc s why hb hd, hm]; rfl
  · rw [unitStep, fetch_run .enc s i hb hd, hm]
    exact (exec_eq_runEnc_body i s hu).trans (runEnc_eq s _)

/-- DEC's move reads and writes DEC alone (10_state R30). -/
theorem unitStep_dec (s : State) : unitStep .dec s = .next { s with dec := s.dec.move } := by
  rcases s.dec.move_cases with ⟨hb, hm⟩ | ⟨why, hb, hd, hm⟩ | ⟨i, hb, hd, hu, hm⟩
  · rw [unitStep, fetch_idle .dec s hb, hm]
  · rw [unitStep, fetch_illegal .dec s why hb hd, hm]; rfl
  · rw [unitStep, fetch_run .dec s i hb hd, hm]
    exact (exec_eq_runDec_body i s hu).trans (runDec_eq s _)

/-! ### A step -/

/-- Everything a step can do to the units: ENC moves, DEC moves, or the host does (40_command_model R157). -/
theorem step_cases (s t : State) (h : step s = .next t) :
    (t.enc = s.enc.move ∧ t.dec = s.dec) ∨ (t.enc = s.enc ∧ t.dec = s.dec.move) ∨
    (∃ a rest, s.agenda = .host a :: rest ∧ hostMove a { s with agenda := rest } = .next t) := by
  have unitMoves (u : UnitId) (s' : State) (he : s'.enc = s.enc) (hd : s'.dec = s.dec) (hm : unitStep u s' = .next t) :
      (t.enc = s.enc.move ∧ t.dec = s.dec) ∨ (t.enc = s.enc ∧ t.dec = s.dec.move) := by
    cases u with
    | enc => rw [unitStep_enc] at hm; cases hm; exact .inl ⟨congrArg Enc.move he, hd⟩
    | dec => rw [unitStep_dec] at hm; cases hm; exact .inr ⟨he, congrArg Dec.move hd⟩
  match ha : s.agenda with
  | [] =>
    rw [step, takeTurn_nil s ha] at h
    exact (unitMoves s.turn { s with turn := otherUnit s.turn } rfl rfl h).imp_right .inl
  | .unit u :: rest =>
    rw [step, takeTurn_cons s _ rest ha] at h
    exact (unitMoves u { s with agenda := rest } rfl rfl h).imp_right .inl
  | .host a :: rest =>
    rw [step, takeTurn_cons s _ rest ha] at h
    exact .inr (.inr ⟨a, rest, rfl, h⟩)

end Sys2Proof.Machine

open Sys2Proof Sys2Proof.Machine

/-- Settles O32: a unit's move is a function of that unit, `Enc.move` or `Dec.move`. -/
theorem unitsShareNothing : Obligations.UnitsShareNothing :=
  fun s => ⟨⟨s.enc.move, fun s' h => h ▸ unitStep_enc s'⟩, ⟨s.dec.move, fun s' h => h ▸ unitStep_dec s'⟩⟩
end

section
/-! SUPPORT. What takes a unit out of ERROR (10_state R39): no command but CLEAR, and no move of the host but reset. -/

namespace Sys2Proof.Machine

/-- 15 is the code of ERROR and of no other phase (10_state R36). -/
theorem Phase.value_eq_15_iff (u : UnitId) (p : Phase) : p.value u = 15 ↔ p = .error := by
  cases u <;> cases p <;> decide

/-! ### Commands in ERROR -/

/-- No command with a phase requirement runs in ERROR: ENC's raise SEQUENCE at every micro-step (40_command_model R154, R155). -/
theorem Enc.body_of_error (e : Enc) (i : Instr) (he : e.core.phase = .error) (hu : i.unit = .enc)
    (hr : runsInAnyPhase i = false) : e.body i = .raised (e.raise .sequence) := by
  have out (ps : List Phase) (b : Body Enc) (h : Phase.error ∉ ps) : e.inPhase ps b = .raised (e.raise .sequence) :=
    e.inPhase_of_not_mem ps b (he ▸ h)
  have hbuild : e.buildTreeBody = .raised (e.raise .sequence) := out _ _ (by decide)
  have hgen : e.genCodesBody = .raised (e.raise .sequence) := out _ _ (by decide)
  have hemit : e.emitHeaderBody = .raised (e.raise .sequence) := out _ _ (by decide)
  cases i
  case eAccum | eAccumStream | ePack | ePackStream | eFinish => exact out _ _ (by decide)
  case eBuildTree => exact hbuild
  case eGenCodes => exact hgen
  case eEmitHeader => exact hemit
  case ePrepare =>
    simp only [Enc.body, Enc.prepareBody]
    split
    · rw [hbuild, Body.handOverEnc]
    · rw [hgen, Body.handOverEnc]
    · exact hemit
  case eNop | eClear | eDrain => cases hr
  all_goals cases hu

/-- No command with a phase requirement runs in ERROR: DEC's raise SEQUENCE at every micro-step (40_command_model R154, R155). -/
theorem Dec.body_of_error (d : Dec) (i : Instr) (hd : d.core.phase = .error) (hu : i.unit = .dec)
    (hr : runsInAnyPhase i = false) : d.body i = .raised (d.raise .sequence) := by
  have out (ps : List Phase) (b : Body Dec) (h : Phase.error ∉ ps) : d.inPhase ps b = .raised (d.raise .sequence) :=
    d.inPhase_of_not_mem ps b (hd ▸ h)
  have hbuild : d.buildTreeBody = .raised (d.raise .sequence) := out _ _ (by decide)
  have hgen : d.genCodesBody = .raised (d.raise .sequence) := out _ _ (by decide)
  have hcheck : d.checkTbcBody = .raised (d.raise .sequence) := out _ _ (by decide)
  cases i
  case dLoadHeader | dWalk | dDecodeStream => exact out _ _ (by decide)
  case dBuildTree => exact hbuild
  case dGenCodes => exact hgen
  case dCheckTbc => exact hcheck
  case dRun =>
    simp only [Dec.body, Dec.runBody]
    split
    · rw [out _ _ (by decide), Body.handOverDec]
    · rw [hbuild, Body.handOverDec]
    · rw [hgen, Body.handOverDec]
    · rw [hcheck, Body.handOverDec]
    · exact out _ _ (by decide)
  case dNop | dClear | dDrain => cases hr
  all_goals cases hu

/-- The commands of ENC without a phase requirement (40_command_model R154). -/
theorem runsInAnyPhase_enc (i : Instr) (hu : i.unit = .enc) (hr : runsInAnyPhase i = true) :
    i = .eNop ∨ i = .eClear ∨ i = .eDrain := by
  cases i <;> simp_all [runsInAnyPhase, Instr.unit]

/-- In ERROR, only CLEAR brings ENC to another phase. -/
theorem Enc.after_body_of_error (e : Enc) (i : Instr) (he : e.core.phase = .error) (hu : i.unit = .enc)
    (hc : i ≠ .eClear) : (e.after (e.body i)).core.phase = .error := by
  cases hr : runsInAnyPhase i with
  | false => rw [e.body_of_error i he hu hr]; rfl
  | true =>
    obtain rfl | rfl | rfl := runsInAnyPhase_enc i hu hr
    · exact he
    · exact absurd rfl hc
    · rcases e.core.drainBody_cases with ⟨-, h⟩ | ⟨rest, -, h⟩ | ⟨b, rest, -, h⟩ <;> rw [Enc.body, h] <;> exact he

/-- The commands of DEC without a phase requirement (40_command_model R154). -/
theorem runsInAnyPhase_dec (i : Instr) (hu : i.unit = .dec) (hr : runsInAnyPhase i = true) :
    i = .dNop ∨ i = .dClear ∨ i = .dDrain := by
  cases i <;> simp_all [runsInAnyPhase, Instr.unit]

/-- In ERROR, only CLEAR brings DEC to another phase. -/
theorem Dec.after_body_of_error (d : Dec) (i : Instr) (hd : d.core.phase = .error) (hu : i.unit = .dec)
    (hc : i ≠ .dClear) : (d.after (d.body i)).core.phase = .error := by
  cases hr : runsInAnyPhase i with
  | false => rw [d.body_of_error i hd hu hr]; rfl
  | true =>
    obtain rfl | rfl | rfl := runsInAnyPhase_dec i hu hr
    · exact hd
    · exact absurd rfl hc
    · rcases d.core.drainBody_cases with ⟨-, h⟩ | ⟨rest, -, h⟩ | ⟨b, rest, -, h⟩ <;> rw [Dec.body, h] <;> exact hd

/-- A move of ENC out of ERROR is its running CLEAR. -/
theorem Enc.move_leaves_error (e : Enc) (he : e.core.phase = .error) (hm : e.move.core.phase ≠ .error) :
    e.core.busy = true ∧ decode .enc e.core.cur = .ok .eClear := by
  rcases e.move_cases with ⟨-, h⟩ | ⟨why, -, -, h⟩ | ⟨i, hb, hd, hu, h⟩ <;> rw [h] at hm
  · exact absurd he hm
  · exact absurd rfl hm
  · by_cases hc : i = .eClear
    · exact ⟨hb, hc ▸ hd⟩
    · exact absurd (e.after_body_of_error i he hu hc) hm

/-- A move of DEC out of ERROR is its running CLEAR. -/
theorem Dec.move_leaves_error (d : Dec) (he : d.core.phase = .error) (hm : d.move.core.phase ≠ .error) :
    d.core.busy = true ∧ decode .dec d.core.cur = .ok .dClear := by
  rcases d.move_cases with ⟨-, h⟩ | ⟨why, -, -, h⟩ | ⟨i, hb, hd, hu, h⟩ <;> rw [h] at hm
  · exact absurd he hm
  · exact absurd rfl hm
  · by_cases hc : i = .dClear
    · exact ⟨hb, hc ▸ hd⟩
    · exact absurd (d.after_body_of_error i he hu hc) hm

/-! ### Host moves -/

/-- Every unit in ERROR in `s` is in ERROR in `t`. -/
def ErrorsStay (s t : State) : Prop := ∀ u : UnitId, (s.core u).phase = .error → (t.core u).phase = .error

theorem ErrorsStay.trans {s t r : State} (h : ErrorsStay s t) (h' : ErrorsStay t r) : ErrorsStay s r :=
  fun u he => h' u (h u he)

/-- An answer to the host changes no unit. -/
theorem ErrorsStay.reply {s t : State} (h : ErrorsStay s t) (r : Reply) : ErrorsStay s (t.reply r) := by
  intro u he
  cases u
  · exact h .enc he
  · exact h .dec he

theorem errorsStay_of_units {s t : State} (he : t.enc = s.enc) (hd : t.dec = s.dec) : ErrorsStay s t := by
  intro u h
  cases u
  · exact (congrArg (·.core.phase) he).trans h
  · exact (congrArg (·.core.phase) hd).trans h

theorem errorsStay_setCore (s : State) (u : UnitId) (c : Common) (h : (s.core u).phase = .error → c.phase = .error) :
    ErrorsStay s (s.setCore u c) := by
  intro v hv
  cases u <;> cases v
  · exact h hv
  · exact hv
  · exact hv
  · exact h hv

/-- A CMD write leaves PHASE as it is, or is an overrun, which enters ERROR (40_command_model R151 to R153). -/
theorem Common.cmdWrite_phase (c : Common) (w : Word) : (c.cmdWrite w).phase = c.phase ∨ (c.cmdWrite w).phase = .error := by
  rcases c.cmdWrite_cases w with ⟨-, h⟩ | ⟨-, -, -, h⟩ | ⟨-, -, h⟩ <;> rw [h]
  · exact .inr rfl
  · exact .inl rfl
  · exact .inl rfl

/-- No register write leaves ERROR (20_memory R93, R95). -/
theorem Common.regWrite_phase_of_error (c : Common) (r : Reg) (v : Word) (h : c.phase = .error) :
    (c.regWrite r v).phase = .error := by
  cases r
  case cmd => exact (c.cmdWrite_phase v).elim (·.trans h) id
  all_goals exact h

theorem errorsStay_hostRead (u : UnitId) (off : BitVec 12) (width : Nat) (s : State) :
    ErrorsStay s (hostRead u off width s) := by
  obtain ⟨he, hd⟩ := hostRead_units u off width s
  exact errorsStay_of_units he hd

theorem errorsStay_hostWrite (u : UnitId) (off : BitVec 12) (width : Nat) (v : Word) (s : State) :
    ErrorsStay s (hostWrite u off width v s) := by
  unfold hostWrite
  split
  · exact (errorsStay_setCore s u _ ((s.core u).regWrite_phase_of_error _ v)).reply _
  · exact (errorsStay_of_units rfl rfl).reply _

theorem errorsStay_hostTake (u : UnitId) (s : State) : ErrorsStay s (hostTake u s) := by
  unfold hostTake
  split
  · exact (errorsStay_of_units rfl rfl).reply _
  · refine .reply (errorsStay_setCore s u _ ?_) _
    exact id

theorem errorsStay_hostForward (s : State) : ErrorsStay s (hostForward s) := by
  unfold hostForward
  split
  · exact (errorsStay_of_units rfl rfl).reply _
  · refine .reply (.trans (errorsStay_setCore s .enc _ ?_) (errorsStay_setCore _ .dec _ ?_)) _ <;> exact id

/-- A bus access does what the access to the named bank does. -/
theorem busMove_next (addr : Nat) (access : UnitId → BitVec 12 → State) (t : State)
    (h : busMove addr access = .next t) : ∃ u off, t = access u off := by
  unfold busMove at h
  split at h
  · exact ⟨_, _, (Host.Outcome.next.inj h).symm⟩
  · cases h

/-- No move of the host but reset brings a unit out of ERROR. -/
theorem errorsStay_hostMove (a : HostMove) (s t : State) (h : hostMove a s = .next t) (ha : a ≠ .reset) :
    ErrorsStay s t := by
  cases a with
  | read u off width => cases h; exact errorsStay_hostRead u off width s
  | write u off width v => cases h; exact errorsStay_hostWrite u off width v s
  | busRead addr width =>
    obtain ⟨u, off, rfl⟩ := busMove_next addr _ t h
    exact errorsStay_hostRead u off width s
  | busWrite addr width v =>
    obtain ⟨u, off, rfl⟩ := busMove_next addr _ t h
    exact errorsStay_hostWrite u off width v s
  | send u data eos => cases h; exact errorsStay_setCore s u _ id
  | take u => cases h; exact errorsStay_hostTake u s
  | forward => cases h; exact errorsStay_hostForward s
  | reset => exact absurd rfl ha

/-! ### A step out of ERROR -/

/-- A step that brings unit `u` out of ERROR is the host's reset or `u`'s running CLEAR (10_state R39). -/
theorem step_leaves_error (s t : State) (u : UnitId) (h : step s = .next t) (hs : (s.core u).phase = .error)
    (ht : (t.core u).phase ≠ .error) :
    (∃ rest, s.agenda = .host .reset :: rest) ∨
    ((s.core u).busy = true ∧ decode u (s.core u).cur = .ok (match u with | .enc => .eClear | .dec => .dClear)) := by
  rcases step_cases s t h with ⟨he, hd⟩ | ⟨he, hd⟩ | ⟨a, rest, ha, hm⟩
  · cases u with
    | enc => exact .inr (s.enc.move_leaves_error hs (he ▸ ht))
    | dec => exact absurd ((congrArg (·.core.phase) hd).trans hs) ht
  · cases u with
    | enc => exact absurd ((congrArg (·.core.phase) he).trans hs) ht
    | dec => exact .inr (s.dec.move_leaves_error hs (hd ▸ ht))
  · by_cases hr : a = .reset
    · exact .inl ⟨rest, hr ▸ ha⟩
    · exact absurd (errorsStay_hostMove a _ t hm hr u (by cases u <;> exact hs)) ht

end Sys2Proof.Machine

open Sys2Proof Sys2Proof.Machine

/-- Settles O13: a case split on what a step can do to the unit in ERROR. -/
theorem onlyClearOrResetLeavesError : Obligations.OnlyClearOrResetLeavesError := by
  refine ⟨fun u c => ?_, fun c k opc => ?_, fun s t u h hs ht => ?_⟩
  · rw [Common.err_iff, Phase.value_eq_15_iff]
  · rw [Common.err_iff, Common.errorEntry_phase]
  · have hd := step_leaves_error s t u h ((s.core u).err_iff.mp hs) ((t.core u).err_false_iff.mp ht)
    cases u <;> exact hd
end

section
/-! SUPPORT. An access of another width than 32, or at an offset that is no multiple of 4, gets a bus error (20_memory R91). -/

namespace Sys2Proof.Machine

theorem legalAccess_eq_false_iff (off : BitVec 12) (width : Nat) :
    legalAccess off width = false ↔ width ≠ 32 ∨ off.toNat % 4 ≠ 0 := by
  rw [legalAccess, decide_eq_false_iff_not, not_and_or]

/-- An illegal read answers a bus error with 0, and nothing else changes. -/
theorem hostRead_illegal (u : UnitId) (s : State) {off : BitVec 12} {width : Nat} (h : legalAccess off width = false) :
    hostRead u off width s = s.reply (.readError 0) :=
  if_neg (Bool.eq_false_iff.mp h)

/-- An illegal write answers a bus error, and nothing else changes. -/
theorem hostWrite_illegal (u : UnitId) (v : Word) (s : State) {off : BitVec 12} {width : Nat}
    (h : legalAccess off width = false) : hostWrite u off width v s = s.reply .writeError :=
  if_neg (Bool.eq_false_iff.mp h)

end Sys2Proof.Machine

open Sys2Proof Sys2Proof.Machine

/-- Settles O56: an access outside R91 is not legal, and a read or write that is not legal only adds its bus error to the
host's replies. -/
theorem illegalAccessIsABusError : Obligations.IllegalAccessIsABusError := by
  intro s u off width v h
  have hillegal := (legalAccess_eq_false_iff off width).mpr h
  exact ⟨congrArg Host.Outcome.next (hostRead_illegal u s hillegal),
    congrArg Host.Outcome.next (hostWrite_illegal u v s hillegal)⟩
end

section
/-! SUPPORT. The header of a file (30_encoding R136, 41_frequency R183): where each byte of a count stands in it, and what
loading it byte by byte does to COUNT. -/

namespace Sys2Proof.Machine

/-! ### The bytes of the header -/

theorem length_flatMap_countBytes (l : List (BitVec 32)) : (l.flatMap countBytes).length = 4 * l.length := by
  induction l with
  | nil => rfl
  | cons v l ih =>
    rw [List.flatMap_cons, List.length_append, ih, List.length_cons, Nat.mul_succ, Nat.add_comm]
    rfl

/-- Byte `k` of the count at place `x`. -/
theorem getElem?_flatMap_countBytes (l : List (BitVec 32)) (x : Nat) {k : Nat} (hk : k < 4) :
    (l.flatMap countBytes)[4 * x + k]? = l[x]?.bind fun v => (countBytes v)[k]? := by
  induction l generalizing x with
  | nil => rfl
  | cons v l ih =>
    have hlen : (countBytes v).length = 4 := rfl
    rw [List.flatMap_cons]
    cases x with
    | zero => rw [List.getElem?_append_left (by omega), Nat.mul_zero, Nat.zero_add]; rfl
    | succ x =>
      rw [List.getElem?_append_right (by omega), List.getElem?_cons_succ, ← ih x]
      congr 1
      omega

theorem length_headerBytes (count : Vector (BitVec 32) 256) : (headerBytes count).length = 1024 := by
  rw [headerBytes, length_flatMap_countBytes, Vector.length_toList]

theorem getElem?_headerBytes (count : Vector (BitVec 32) 256) (x : Nat) (h : x < 256) {k : Nat} (hk : k < 4) :
    (headerBytes count)[4 * x + k]? = (countBytes count[x])[k]? := by
  rw [headerBytes, getElem?_flatMap_countBytes _ x hk, List.getElem?_eq_getElem (by simpa using h), Vector.getElem_toList,
    Option.bind_some]

/-! ### The four bytes of a count -/

theorem getLsbD_byteMask (i : Nat) : (0xFF : BitVec 32).getLsbD i = decide (i < 8) := by
  have hmask : (0xFF : BitVec 32) = (BitVec.allOnes 8).setWidth 32 := by decide
  rw [hmask, BitVec.getLsbD_setWidth, BitVec.getLsbD_allOnes, ← Bool.decide_and, decide_eq_decide]
  omega

/-- Putting a byte into a count changes the eight bits of its place and no other. -/
theorem getLsbD_setCountByte (v : BitVec 32) (k : Nat) (b : Byte) (i : Nat) (hi : i < 32) :
    (setCountByte v k b).getLsbD i =
      if 24 - 8 * k ≤ i ∧ i < 24 - 8 * k + 8 then b.getLsbD (i - (24 - 8 * k)) else v.getLsbD i := by
  simp only [setCountByte, BitVec.getLsbD_or, BitVec.getLsbD_and, BitVec.getLsbD_not, BitVec.getLsbD_shiftLeft,
    BitVec.getLsbD_setWidth, getLsbD_byteMask]
  split
  case isTrue h =>
    have hlow : ¬ i < 24 - 8 * k := by omega
    have hhigh : i - (24 - 8 * k) < 8 := by omega
    have hwide : i - (24 - 8 * k) < 32 := by omega
    simp [hi, hlow, hhigh, hwide]
  case isFalse h =>
    by_cases hlow : i < 24 - 8 * k
    · simp [hi, hlow]
    · have hhigh : ¬ i - (24 - 8 * k) < 8 := by omega
      simp [hi, hlow, hhigh, BitVec.getLsbD_of_ge b (i - (24 - 8 * k)) (Nat.le_of_not_lt hhigh)]

/-- Byte `k` of `v`, put at its place into `w`, gives these eight bits as `v` has them. -/
theorem getLsbD_setCountByte_extractLsb' (w v : BitVec 32) (k i : Nat) (hi : i < 32) :
    (setCountByte w k (v.extractLsb' (24 - 8 * k) 8)).getLsbD i =
      if 24 - 8 * k ≤ i ∧ i < 24 - 8 * k + 8 then v.getLsbD i else w.getLsbD i := by
  rw [getLsbD_setCountByte w k _ i hi]
  refine if_ctx_congr Iff.rfl (fun h => ?_) fun _ => rfl
  rw [BitVec.getLsbD_extractLsb', Nat.add_sub_cancel' h.1, decide_eq_true (by omega), Bool.true_and]

/-- The four bytes of a count, put at their places, give the count, whatever stood there: every bit is in one of them. -/
theorem setCountByte_four (w v : BitVec 32) :
    setCountByte (setCountByte (setCountByte (setCountByte w 0 (v.extractLsb' 24 8)) 1 (v.extractLsb' 16 8))
      2 (v.extractLsb' 8 8)) 3 (v.extractLsb' 0 8) = v := by
  refine BitVec.eq_of_getLsbD_eq fun i hi => ?_
  rw [getLsbD_setCountByte_extractLsb' _ v 3 i hi, getLsbD_setCountByte_extractLsb' _ v 2 i hi,
    getLsbD_setCountByte_extractLsb' _ v 1 i hi, getLsbD_setCountByte_extractLsb' _ v 0 i hi]
  split_ifs
  case neg => omega
  all_goals rfl

/-! ### Loading bytes -/

/-- The bytes put one after the other at the places from `idx` on. -/
def Common.loadBytes (c : Common) (idx : Nat) (bs : List Byte) : Common :=
  (bs.zipIdx idx).foldl (fun acc p => acc.loadHeaderByte p.2 p.1) c

theorem Common.loadBytes_append (c : Common) (idx : Nat) (as bs : List Byte) :
    c.loadBytes idx (as ++ bs) = (c.loadBytes idx as).loadBytes (idx + as.length) bs := by
  rw [loadBytes, List.zipIdx_append, List.foldl_append]
  rfl

/-- A byte loaded at place `k` of symbol `x`. -/
theorem Common.count_loadHeaderByte (c : Common) (x : Nat) (h : x < 256) {k : Nat} (hk : k < 4) (b : Byte) :
    (c.loadHeaderByte (4 * x + k) b).count = c.count.set x (setCountByte c.count[x] k b) := by
  have hx : (4 * x + k) / 4 = x := by omega
  have hm : (4 * x + k) % 4 = k := by omega
  simp [loadHeaderByte, countAt, hx, hm, Nat.mod_eq_of_lt h]

/-- The four bytes of a count loaded at the places of symbol `x`. -/
theorem Common.count_loadBytes_countBytes (c : Common) (x : Nat) (h : x < 256) (v : BitVec 32) :
    (c.loadBytes (4 * x) (countBytes v)).count = c.count.set x v := by
  change ((((c.loadHeaderByte (4 * x + 0) _).loadHeaderByte (4 * x + 1) _).loadHeaderByte (4 * x + 2) _).loadHeaderByte
    (4 * x + 3) _).count = _
  simp only [count_loadHeaderByte _ x h (by decide : 0 < 4), count_loadHeaderByte _ x h (by decide : 1 < 4),
    count_loadHeaderByte _ x h (by decide : 2 < 4), count_loadHeaderByte _ x h (by decide : 3 < 4),
    Vector.getElem_set_self, Vector.set_set, setCountByte_four]

/-- Counts loaded from the header's start stand in COUNT in their order. -/
theorem Common.getElem_count_loadBytes (c : Common) (l : List (BitVec 32)) (hl : l.length ≤ 256) (j : Nat)
    (hj : j < l.length) : (c.loadBytes 0 (l.flatMap countBytes)).count[j] = l[j] := by
  induction l using List.reverseRecOn with
  | nil => cases hj
  | append_singleton l v ih =>
    rw [List.length_append, List.length_singleton] at hl hj
    simp only [List.flatMap_append, List.flatMap_singleton, loadBytes_append, length_flatMap_countBytes, Nat.zero_add,
      count_loadBytes_countBytes _ l.length hl]
    rcases Nat.lt_succ_iff_lt_or_eq.mp hj with hlt | rfl
    · rw [Vector.getElem_set_ne _ _ (by omega), List.getElem_append_left hlt]
      exact ih (by omega) hlt
    · rw [Vector.getElem_set_self, List.getElem_concat_length rfl]

theorem Common.count_loadBytes_headerBytes (c : Common) (count : Vector (BitVec 32) 256) :
    (c.loadBytes 0 (headerBytes count)).count = count := by
  refine Vector.ext fun j hj => ?_
  rw [headerBytes, c.getElem_count_loadBytes count.toList (by simp) j (by simpa using hj), Vector.getElem_toList]

end Sys2Proof.Machine

open Sys2Proof Sys2Proof.Machine

/-- Settles O43: the header's length and byte places by induction over its counts, and the load by induction over the counts
loaded so far, each count's four bytes giving it back. -/
theorem headerLoadInvertsHeaderBytes : Obligations.HeaderLoadInvertsHeaderBytes := by
  refine fun c count => ⟨length_headerBytes count, fun x h => ?_, c.count_loadBytes_headerBytes count⟩
  exact ⟨getElem?_headerBytes count x h (k := 0) (by decide), getElem?_headerBytes count x h (k := 1) (by decide),
    getElem?_headerBytes count x h (k := 2) (by decide), getElem?_headerBytes count x h (k := 3) (by decide)⟩
end

section
/-! SUPPORT. A host write to CMD, offset 0x008, is `Common.cmdWrite` in the written unit (40_command_model R150). -/

namespace Sys2Proof.Machine

/-- A common part put back where it stands changes nothing. -/
@[simp] theorem State.setCore_core (s : State) (u : UnitId) : s.setCore u (s.core u) = s := by cases u <;> rfl

/-- A write to CMD changes the written unit by `cmdWrite`, and nothing else but the replies. -/
theorem hostMove_write_cmd (s : State) (u : UnitId) (w : Word) :
    hostMove (.write u 0x008 32 w) s = .next ((s.setCore u ((s.core u).cmdWrite w)).reply .written) :=
  congrArg Host.Outcome.next (hostWrite_legal u 0x008 w s (by decide))

/-- The words ignored in ERROR (40_command_model R150). -/
theorem actsInError_eq_false_iff (w : Word) :
    actsInError w = false ↔ w ≠ 0x00000000 ∧ w ≠ 0x00000001 ∧ w ≠ 0x0000000E := by
  rw [← Bool.not_eq_true, actsInError_iff, not_or, not_or]

end Sys2Proof.Machine

open Sys2Proof Sys2Proof.Machine

/-- Settles O7: a write to CMD is `cmdWrite`, whose three cases are the overrun, which is error entry, the ignored word and
acceptance, which clears `begun`. -/
theorem cmdWriteOverrunIgnoredOrAccepted : Obligations.CmdWriteOverrunIgnoredOrAccepted := by
  intro s u w
  rw [hostMove_write_cmd]
  refine ⟨fun hbusy => ?overrun, fun hidle herr hnop hclear hdrain => ?ignored, fun hidle hacts => ⟨false, ?accepted⟩⟩
  case overrun =>
    rw [Common.cmdWrite_busy _ w hbusy, Common.overrun, setCore_errorEntry]
    exact EndsIn.of_eq u _ _ rfl
  case ignored =>
    have hw := (actsInError_eq_false_iff w).mpr ⟨hnop, hclear, hdrain⟩
    rw [Common.cmdWrite_ignored _ w hidle herr hw, State.setCore_core]
  case accepted =>
    rw [Common.cmdWrite_accepted _ w hidle (hacts.imp_right (actsInError_iff w).mpr), Common.accept]
end

section
/-! SUPPORT. The legal words of a format F1 opcode (30_encoding R122, R126), and one micro-step of E.ACCUM (41_frequency R181). -/

namespace Sys2Proof.Machine

/-! ### Words of format F1 -/

/-- A word whose opcode finds a row in the unit's map is read by that row. -/
theorem decode_of_find? (u : UnitId) (row : OpcodeRow) (w : Word)
    (hfind : (opcodeMap u).find? (fun r => decide (r.opc = row.opc)) = some row) (hw : opcField w = row.opc) :
    decode u w = row.read (immField w) (rsvField w) := by
  rw [decode, hw, hfind]

/-- A row of format F1 takes every operand, and rejects every word whose RSV field is not 0. -/
theorem onlySymbolWords_of_find? (u : UnitId) (row : OpcodeRow) (hfmt : row.fmt = .f1)
    (hfind : (opcodeMap u).find? (fun r => decide (r.opc = row.opc)) = some row) :
    OnlySymbolWords u row.opc row.make := by
  refine ⟨fun sym => ?_, fun w hopc hrsv => ⟨.reservedNotZero, ?_⟩⟩
  · obtain ⟨hopc, himm, hrsv⟩ := Laws.EncodingFields.fields sym row.opc
    rw [decode_of_find? u row _ hfind hopc, himm, hrsv]
    simp [OpcodeRow.read, hfmt]
  · rw [decode_of_find? u row w hfind hopc]
    exact if_pos hrsv

/-! ### Counting one symbol -/

/-- A count at 2^32 − 1 is not counted on: COUNT_OVERFLOW, with the counts as they were. -/
theorem Enc.countOne_of_eq_max (e : Enc) (sym : Symbol) (next : Enc → Body Enc)
    (h : e.core.count[sym.toNat] = 0xFFFFFFFF) : e.countOne sym next = .raised (e.raise .countOverflow) :=
  if_pos h

/-- A count below 2^32 − 1 goes up by 1. -/
theorem Enc.countOne_of_ne_max (e : Enc) (sym : Symbol) (next : Enc → Body Enc)
    (h : e.core.count[sym.toNat] ≠ 0xFFFFFFFF) :
    e.countOne sym next = next (e.withCore (e.core.setCount sym (e.core.count[sym.toNat] + 1))) :=
  if_neg h

/-- E.ACCUM in COUNTING is the counting alone. -/
theorem exec_eAccum_of_counting (sym : Symbol) (s : State) (h : s.enc.core.phase = .counting) :
    exec (.eAccum sym) s = runEnc s (s.enc.countOne sym fun e => .fin e .counting) := by
  rw [exec_eq_runEnc_body (.eAccum sym) s rfl, Enc.body, Enc.inPhase_of_mem _ _ _ (List.mem_singleton.mpr h)]

/-- E.ACCUM in any other phase raises SEQUENCE (40_command_model R155). -/
theorem exec_eAccum_of_not_counting (sym : Symbol) (s : State) (h : s.enc.core.phase ≠ .counting) :
    exec (.eAccum sym) s = runEnc s (.raised (s.enc.raise .sequence)) := by
  rw [exec_eq_runEnc_body (.eAccum sym) s rfl, Enc.body, Enc.inPhase_of_not_mem _ _ _ (mt List.mem_singleton.mp h)]

/-- A completion that leaves PHASE as it is changes BUSY and DONE alone (40_command_model R158). -/
theorem Common.complete_of_phase (c : Common) (p : Phase) (h : c.phase = p) :
    c.complete p = { c with busy := false, done := true } := by
  subst h; rfl

end Sys2Proof.Machine

open Sys2Proof Sys2Proof.Machine

/-- Settles O16: the row of opcode 0x02 is of format F1, and E.ACCUM's micro-step splits on PHASE and on the count being at
its maximum. -/
theorem accumCountsOneSymbol : Obligations.AccumCountsOneSymbol := by
  refine ⟨onlySymbolWords_of_find? .enc ⟨0x02, .f1, .eAccum⟩ rfl rfl, fun s sym => ⟨
    fun hphase => EndsIn.of_eq .enc _ _ ?outOfPhase, fun hphase hmax => EndsIn.of_eq .enc _ _ ?overflow,
    fun hphase hmax => EndsIn.of_eq .enc _ _ ?counted⟩⟩
  case outOfPhase => rw [exec_eAccum_of_not_counting sym s hphase, runEnc_raise]
  case overflow => rw [exec_eAccum_of_counting sym s hphase, Enc.countOne_of_eq_max _ _ _ hmax, runEnc_raise]
  case counted =>
    rw [exec_eAccum_of_counting sym s hphase, Enc.countOne_of_ne_max _ _ _ hmax, runEnc, Common.complete_of_phase]
    · rfl
    · exact hphase
end

section
/-! SUPPORT. The one legal word of a format F0 opcode (30_encoding R121, R126), and the commands of one micro-step with one phase
they may run in (40_command_model R154, R155, R158). -/

namespace Sys2Proof.Machine

/-- A word is its three fields put together. -/
theorem fields_append (w : Word) : rsvField w ++ immField w ++ opcField w = w := by
  ext k hk
  simp only [rsvField, immField, opcField, BitVec.getElem_append, BitVec.getElem_extractLsb']
  split
  case isTrue h => simp [BitVec.getLsbD_eq_getElem hk]
  case isFalse h =>
    split
    case isTrue h' => simp [show 8 + (k - 8) = k by omega, BitVec.getLsbD_eq_getElem hk]
    case isFalse h' => simp [show 16 + (k - 8 - 8) = k by omega, BitVec.getLsbD_eq_getElem hk]

/-- A row of format F0 takes its opcode's word with the other fields 0, and rejects every other word of the opcode. -/
theorem onlyWord_of_find? (u : UnitId) (row : OpcodeRow) (hfmt : row.fmt = .f0)
    (hfind : (opcodeMap u).find? (fun r => decide (r.opc = row.opc)) = some row) :
    OnlyWord u row.opc ((0 : BitVec 16) ++ (0 : Byte) ++ row.opc) (row.make 0) := by
  refine ⟨?_, fun w hopc hne => ?_⟩
  · obtain ⟨hopc, himm, hrsv⟩ := Laws.EncodingFields.fields 0 row.opc
    rw [decode_of_find? u row _ hfind hopc, himm, hrsv]
    simp [OpcodeRow.read]
  · rw [decode_of_find? u row w hfind hopc, OpcodeRow.read]
    by_cases hrsv : rsvField w = 0
    · have himm : immField w ≠ 0 := fun himm => hne (by rw [← fields_append w, hrsv, himm, opcField, hopc])
      exact ⟨.operandNotZero, by rw [if_neg (not_not.mpr hrsv), if_pos ⟨hfmt, himm⟩]⟩
    · exact ⟨.reservedNotZero, if_pos hrsv⟩

/-- A command of one micro-step in its phase completes with the common part `c` it computes. -/
theorem runEnc_inPhase_fin (s : State) (p q : Phase) (c : Common) (h : s.enc.core.phase = p) :
    EndsIn .enc (runEnc s (s.enc.inPhase [p] (.fin (s.enc.withCore c) q))) (s.setCore .enc (c.complete q)) := by
  rw [Enc.inPhase_of_mem _ _ _ (List.mem_singleton.mpr h)]
  exact EndsIn.of_eq .enc _ _ rfl

/-- A command in another phase than its own raises SEQUENCE (40_command_model R155). -/
theorem runEnc_inPhase_raise (s : State) (p : Phase) (b : Body Enc) (h : s.enc.core.phase ≠ p) :
    EndsIn .enc (runEnc s (s.enc.inPhase [p] b)) (withError .enc .sequence (s.enc.core.cur.extractLsb' 0 8) s) := by
  rw [Enc.inPhase_of_not_mem _ _ _ (mt List.mem_singleton.mp h)]
  exact EndsIn.of_eq .enc _ _ (runEnc_raise s .sequence)

/-- The same in DEC: completion. -/
theorem runDec_inPhase_fin (s : State) (p q : Phase) (c : Common) (h : s.dec.core.phase = p) :
    EndsIn .dec (runDec s (s.dec.inPhase [p] (.fin (s.dec.withCore c) q))) (s.setCore .dec (c.complete q)) := by
  rw [Dec.inPhase_of_mem _ _ _ (List.mem_singleton.mpr h)]
  exact EndsIn.of_eq .dec _ _ rfl

/-- The same in DEC: SEQUENCE. -/
theorem runDec_inPhase_raise (s : State) (p : Phase) (b : Body Dec) (h : s.dec.core.phase ≠ p) :
    EndsIn .dec (runDec s (s.dec.inPhase [p] b)) (withError .dec .sequence (s.dec.core.cur.extractLsb' 0 8) s) := by
  rw [Dec.inPhase_of_not_mem _ _ _ (mt List.mem_singleton.mp h)]
  exact EndsIn.of_eq .dec _ _ (runDec_raise s .sequence)

end Sys2Proof.Machine

open Sys2Proof Sys2Proof.Machine

/-- Settles O19: the rows of opcode 0x04 are of format F0, and BUILD_TREE is one micro-step that completes in its phase and
raises SEQUENCE in every other. -/
theorem buildTreeWritesNode : Obligations.BuildTreeWritesNode :=
  ⟨onlyWord_of_find? .enc ⟨0x04, .f0, fun _ => .eBuildTree⟩ rfl rfl,
    onlyWord_of_find? .dec ⟨0x04, .f0, fun _ => .dBuildTree⟩ rfl rfl, fun s =>
    ⟨runEnc_inPhase_fin s .counting .treeBuilt s.enc.core.buildTree, runEnc_inPhase_raise s .counting _,
      runDec_inPhase_fin s .headerLoaded .treeBuilt s.dec.core.buildTree, runDec_inPhase_raise s .headerLoaded _⟩⟩

/-- Settles O20: the same for GEN_CODES and opcode 0x05. -/
theorem genCodesWritesCodeTable : Obligations.GenCodesWritesCodeTable :=
  ⟨onlyWord_of_find? .enc ⟨0x05, .f0, fun _ => .eGenCodes⟩ rfl rfl,
    onlyWord_of_find? .dec ⟨0x05, .f0, fun _ => .dGenCodes⟩ rfl rfl, fun s =>
    ⟨runEnc_inPhase_fin s .treeBuilt .codesReady s.enc.core.genCodes, runEnc_inPhase_raise s .treeBuilt _,
      runDec_inPhase_fin s .treeBuilt .codesReady s.dec.core.genCodes, runDec_inPhase_raise s .treeBuilt _⟩⟩
end

section
/-! SUPPORT. TreeBuild as a run of merges: the active set after each of them, what every merge keeps of it, and the node it makes
(42_tree_codes R200, R201). -/

namespace Sys2Proof.Machine

/-! ### The order of R201 -/

/-- A member comes before no member of less weight, and before none of its own weight and a smaller index. -/
theorem Active.before_eq_false_iff (a b : Active) : a.before b = false ↔ b.w < a.w ∨ (b.w = a.w ∧ b.n ≤ a.n) := by
  rw [Bool.eq_false_iff, ne_eq, before_iff]
  omega

theorem Active.not_before_trans {a b c : Active} (h : b.before a = false) (h' : c.before b = false) : c.before a = false := by
  rw [before_eq_false_iff] at h h' ⊢
  omega

theorem Active.not_before_of_before {a b : Active} (h : a.before b = true) : b.before a = false := by
  rw [before_iff] at h
  rw [before_eq_false_iff]
  omega

/-- The order is total: two members neither of which comes before the other are one. -/
theorem Active.eq_of_not_before {a b : Active} (h : a.before b = false) (h' : b.before a = false) : a = b := by
  rw [before_eq_false_iff] at h h'
  obtain ⟨aw, an⟩ := a
  obtain ⟨bw, bn⟩ := b
  simp only [mk.injEq] at h h' ⊢
  omega

/-- The earlier of two members weighs no more. -/
theorem Active.w_le_of_not_before {a b : Active} (h : b.before a = false) : a.w ≤ b.w := by
  rw [before_eq_false_iff] at h
  omega

/-- No member of an ordered set comes before its head. -/
theorem head_not_before {x : Active} {l : List Active} (h : (x :: l).Pairwise fun a b => b.before a = false) :
    ∀ a ∈ x :: l, a.before x = false :=
  List.forall_mem_cons.mpr
    ⟨(Active.before_eq_false_iff x x).mpr (.inr ⟨rfl, le_rfl⟩), fun _ => List.rel_of_pairwise_cons h⟩

/-! ### The active set after `i` merges -/

/-- One merge of the active set: the two first members leave it, and the node `m` made of them joins it (R201). -/
def mergeStep (m : Nat) : List Active → List Active
  | x :: y :: rest => insertActive ⟨x.w + y.w, m⟩ rest
  | l => l

/-- The active set after `i` merges of TreeBuild; the next merge makes node `256 + i`. -/
def activesAfter (count : Vector (BitVec 32) 256) : Nat → List Active
  | 0 => firstActives count
  | i + 1 => mergeStep (256 + i) (activesAfter count i)

variable (count : Vector (BitVec 32) 256)

theorem length_mergeStep (m : Nat) {l : List Active} (h : 2 ≤ l.length) : (mergeStep m l).length = l.length - 1 :=
  match l, h with
  | x :: y :: rest, _ => by rw [mergeStep, insertActive_length]; rfl

theorem length_activesAfter {i : Nat} (hi : i ≤ 255) : (activesAfter count i).length = 256 - i := by
  induction i with
  | zero => exact firstActives_length count
  | succ i ih =>
    have hlen := ih (by omega)
    rw [activesAfter, length_mergeStep _ (by omega), hlen]
    omega

/-- What merge `i` finds and what it leaves. -/
theorem activesAfter_succ {i : Nat} (hi : i < 255) : ∃ x y rest, activesAfter count i = x :: y :: rest ∧
    activesAfter count (i + 1) = insertActive ⟨x.w + y.w, 256 + i⟩ rest := by
  have hlen : 2 ≤ (activesAfter count i).length := by rw [length_activesAfter count hi.le]; omega
  rw [activesAfter]
  match activesAfter count i, hlen with
  | x :: y :: rest, _ => exact ⟨x, y, rest, rfl, rfl⟩

/-- A property of the leaves' set that no reordering and no merge loses holds of the active set after every merge. -/
theorem activesAfter_induction {P : Nat → List Active → Prop} (hperm : ∀ i l l', l.Perm l' → P i l → P i l')
    (hleaves : P 0 (leafActives count))
    (hmerge : ∀ i x y rest, i < 255 → activesAfter count i = x :: y :: rest → P i (x :: y :: rest) →
      P (i + 1) (⟨x.w + y.w, 256 + i⟩ :: rest)) {i : Nat} (hi : i ≤ 255) : P i (activesAfter count i) := by
  induction i with
  | zero => exact hperm _ _ _ (firstActives_perm count).symm hleaves
  | succ i ih =>
    obtain ⟨x, y, rest, hbefore, hafter⟩ := activesAfter_succ count hi
    rw [hafter]
    exact hperm _ _ _ (insertActive_perm _ _).symm (hmerge i x y rest hi hbefore (hbefore ▸ ih (by omega)))

/-! ### The leaves -/

/-- The members of the first active set are the symbols with their counts. -/
theorem mem_leafActives {a : Active} : a ∈ leafActives count ↔ ∃ h : a.n < 256, count[a.n].toNat = a.w := by
  obtain ⟨w, n⟩ := a
  simp only [leafActives, List.mem_map, List.mem_zipIdx_iff_getElem?, Prod.exists, Active.mk.injEq]
  constructor
  · rintro ⟨c, k, hk, rfl, rfl⟩
    obtain ⟨hlt, rfl⟩ := List.getElem?_eq_some_iff.mp hk
    exact ⟨by simpa using hlt, rfl⟩
  · rintro ⟨(h : n < 256), hw⟩
    exact ⟨count[n], n, by simp [h], hw, rfl⟩

theorem map_n_leafActives : (leafActives count).map Active.n = List.range' 0 256 := by
  rw [leafActives, List.map_map]
  exact (List.zipIdx_map_snd 0 count.toList).trans (by rw [Vector.length_toList])

theorem map_w_leafActives : (leafActives count).map Active.w = count.toList.map BitVec.toNat := by
  rw [leafActives, List.map_map, ← List.zipIdx_map_fst 0 count.toList, List.map_map, List.zipIdx_map_fst]
  rfl

/-! ### What every merge keeps -/

/-- Before node `256 + i` is made, every member has a smaller index (R202). -/
theorem n_lt_of_mem_activesAfter {i : Nat} (hi : i ≤ 255) : ∀ a ∈ activesAfter count i, a.n < 256 + i := by
  refine activesAfter_induction count (P := fun i l => ∀ a ∈ l, a.n < 256 + i)
    (fun _ _ _ hp h a ha => h a (hp.mem_iff.mpr ha)) (fun a ha => ((mem_leafActives count).mp ha).1) (fun i x y rest _ _ h a ha => ?_) hi
  rcases List.mem_cons.mp ha with rfl | ha
  · exact Nat.lt_succ_self (256 + i)
  · exact Nat.lt_succ_of_lt (h a (by simp [ha]))

/-- Indices of members need no more than 9 bits (R60). -/
theorem toNat_ofNat_n {i : Nat} (hi : i ≤ 255) {a : Active} (ha : a ∈ activesAfter count i) :
    (BitVec.ofNat 9 a.n).toNat = a.n := by
  have hn := n_lt_of_mem_activesAfter count hi a ha
  rw [BitVec.toNat_ofNat, Nat.mod_eq_of_lt (by omega)]

/-- No index stands twice in the active set. -/
theorem nodup_n_activesAfter {i : Nat} (hi : i ≤ 255) : ((activesAfter count i).map Active.n).Nodup := by
  refine activesAfter_induction count (P := fun _ l => (l.map Active.n).Nodup) (fun _ _ _ hp => ((hp.map _).nodup_iff).mp)
    (map_n_leafActives count ▸ List.nodup_range') (fun i x y rest hi hl h => ?_) hi
  rw [List.map_cons, List.nodup_cons]
  refine ⟨fun hmem => ?_, h.of_cons.of_cons⟩
  obtain ⟨a, ha, hn⟩ := List.mem_map.mp hmem
  have hlt := n_lt_of_mem_activesAfter count hi.le a (by simp [hl, ha])
  exact Nat.ne_of_lt hlt hn

/-- The active set weighs what all counts sum up to. -/
theorem sum_w_activesAfter {i : Nat} (hi : i ≤ 255) :
    ((activesAfter count i).map Active.w).sum = (count.toList.map BitVec.toNat).sum := by
  refine activesAfter_induction count (P := fun _ l => (l.map Active.w).sum = (count.toList.map BitVec.toNat).sum)
    (fun _ _ _ hp => ((hp.map Active.w).sum_eq).symm.trans) (congrArg List.sum (map_w_leafActives count))
    (fun i x y rest _ _ h => ?_) hi
  simpa [Nat.add_assoc] using h

/-- All counts together need no more than 40 bits (R200). -/
theorem sum_counts_lt : (count.toList.map BitVec.toNat).sum < 2 ^ 40 := by
  have hcount : ∀ c ∈ count.toList.map BitVec.toNat, c ≤ 2 ^ 32 - 1 := fun c hc => by
    obtain ⟨v, _, rfl⟩ := List.mem_map.mp hc
    exact Nat.le_sub_one_of_lt v.isLt
  have hsum := List.sum_le_card_nsmul _ _ hcount
  rw [List.length_map, Vector.length_toList, smul_eq_mul] at hsum
  omega

/-- The active set stays in order. -/
theorem activesAfter_sorted {i : Nat} (hi : i ≤ 255) : (activesAfter count i).Pairwise fun a b => b.before a = false := by
  induction i with
  | zero => exact firstActives_sorted count
  | succ i ih =>
    obtain ⟨x, y, rest, hbefore, hafter⟩ := activesAfter_succ count hi
    rw [hafter]
    exact insertActive_sorted _ _ (hbefore ▸ ih (by omega)).of_cons.of_cons

/-- The active set is strictly in order: no two members are equal in it. -/
theorem activesAfter_strictly_sorted {i : Nat} (hi : i ≤ 255) :
    (activesAfter count i).Pairwise fun a b => a.w < b.w ∨ (a.w = b.w ∧ a.n < b.n) := by
  refine (activesAfter_sorted count hi).imp₂ (fun a b h hn => ?_) (List.pairwise_map.mp (nodup_n_activesAfter count hi))
  rw [Active.before_eq_false_iff] at h
  omega

/-! ### The nodes -/

/-- The nodes from `256 + i` on are those of the merges after the `i` first. -/
theorem drop_treeNodes {i : Nat} (hi : i ≤ 255) :
    (treeNodes count).drop (256 + i) = mergeNodes (255 - i) (256 + i) (activesAfter count i) := by
  induction i with
  | zero => exact List.drop_left' (by simp [leafNodes])
  | succ i ih =>
    obtain ⟨x, y, rest, hbefore, hafter⟩ := activesAfter_succ count hi
    rw [← Nat.add_assoc, ← List.tail_drop, ih (by omega), hbefore, hafter, show 255 - i = 255 - (i + 1) + 1 by omega,
      mergeNodes_cons, List.tail_cons, Nat.add_assoc]

/-- Merge `i` makes node `256 + i` of the two first members of the active set (R201). -/
theorem treeBuild_inner {i : Nat} (hi : i < 255) {x y : Active} {rest : List Active}
    (h : activesAfter count i = x :: y :: rest) :
    (treeBuild count)[256 + i] = ⟨BitVec.ofNat 40 (x.w + y.w), BitVec.ofNat 9 x.n, BitVec.ofNat 9 y.n⟩ := by
  have hdrop := drop_treeNodes count hi.le
  rw [h, show 255 - i = 254 - i + 1 by omega, mergeNodes_cons] at hdrop
  have hlen := treeNodes_length count
  rw [List.drop_eq_getElem_cons (by omega)] at hdrop
  exact (List.cons.inj hdrop).1

/-- The node of a valid index. -/
theorem nodeOf_ofNat (node : Vector Node 511) {n : Nat} (h : n < 511) : nodeOf node (BitVec.ofNat 9 n) = node[n] := by
  rw [nodeOf, BitVec.toNat_ofNat, Nat.mod_eq_of_lt (by omega)]
  simp [h]

/-- The sum of the two first members is exact in 40 bits (R200). -/
theorem add_w_lt {i : Nat} (hi : i ≤ 255) {x y : Active} {rest : List Active}
    (h : activesAfter count i = x :: y :: rest) : x.w + y.w < 2 ^ 40 := by
  have hsum := sum_w_activesAfter count hi
  have hlt := sum_counts_lt count
  rw [h, List.map_cons, List.map_cons, List.sum_cons, List.sum_cons] at hsum
  omega

theorem treeBuild_inner_w {i : Nat} (hi : i < 255) {x y : Active} {rest : List Active}
    (h : activesAfter count i = x :: y :: rest) : (treeBuild count)[256 + i].w.toNat = x.w + y.w := by
  rw [treeBuild_inner count hi h, BitVec.toNat_ofNat, Nat.mod_eq_of_lt (add_w_lt count hi.le h)]

/-- The members of the active set carry the weights of their nodes. -/
theorem nodeOf_w_of_mem_activesAfter {i : Nat} (hi : i ≤ 255) :
    ∀ a ∈ activesAfter count i, (nodeOf (treeBuild count) (BitVec.ofNat 9 a.n)).w.toNat = a.w := by
  refine activesAfter_induction count
    (P := fun _ l => ∀ a ∈ l, (nodeOf (treeBuild count) (BitVec.ofNat 9 a.n)).w.toNat = a.w)
    (fun _ _ _ hp h a ha => h a (hp.mem_iff.mpr ha)) (fun a ha => ?leaf) (fun i x y rest hi hl h a ha => ?_) hi
  case leaf =>
    obtain ⟨hlt, hw⟩ := (mem_leafActives count).mp ha
    rw [nodeOf_ofNat _ (by omega), treeBuild_leaf count _ hlt, ← hw]
    exact BitVec.toNat_setWidth_of_le (by decide)
  rcases List.mem_cons.mp ha with rfl | ha
  · exact (nodeOf_ofNat (treeBuild count) (n := 256 + i) (by omega)) ▸ treeBuild_inner_w count hi hl
  · exact h a (by simp [ha])

end Sys2Proof.Machine
end

section
/-! SUPPORT. TreeBuild with an unordered active set (42_tree_codes R201): the least member of a set is the head of the set in
order. -/

namespace Sys2Proof.Machine

/-- What `leastActive` gives is in the set, and no member comes before it. -/
theorem leastActive_spec (a : Active) (rest : List Active) :
    leastActive a rest ∈ a :: rest ∧ ∀ b ∈ a :: rest, b.before (leastActive a rest) = false := by
  induction rest generalizing a with
  | nil => exact ⟨List.mem_singleton_self a, head_not_before (List.pairwise_singleton _ a)⟩
  | cons b rest ih =>
    rw [leastActive]
    split
    case isTrue hba =>
      obtain ⟨hmem, hleast⟩ := ih b
      refine ⟨List.mem_cons_of_mem a hmem, List.forall_mem_cons.mpr ⟨?_, hleast⟩⟩
      exact Active.not_before_trans (hleast b List.mem_cons_self) (Active.not_before_of_before ((b.before_iff a).mpr hba))
    case isFalse hba =>
      obtain ⟨hmem, hleast⟩ := ih a
      have ha := hleast a List.mem_cons_self
      refine ⟨?_, List.forall_mem_cons.mpr ⟨ha, List.forall_mem_cons.mpr ⟨?_, ?_⟩⟩⟩
      · exact ((List.sublist_cons_self b rest).cons_cons a).subset hmem
      · exact Active.not_before_trans ha (Bool.eq_false_iff.mpr (mt (b.before_iff a).mp hba))
      · exact fun c hc => hleast c (List.mem_cons_of_mem a hc)

/-- The least member of a set is the head of the same set in order. -/
theorem leastActive_of_perm {a x : Active} {rest l : List Active} (hp : (a :: rest).Perm (x :: l))
    (hl : (x :: l).Pairwise fun y z => z.before y = false) : leastActive a rest = x := by
  obtain ⟨hmem, hleast⟩ := leastActive_spec a rest
  exact Active.eq_of_not_before (head_not_before hl _ (hp.mem_iff.mp hmem)) (hleast x (hp.mem_iff.mpr List.mem_cons_self))

/-- Merging the set in order is merging it unordered. -/
theorem mergeNodes_eq_mergeByLeast (k m : Nat) (l set : List Active) (hk : k < l.length) (hp : set.Perm l)
    (hl : l.Pairwise fun x y => y.before x = false) : mergeNodes k m l = mergeByLeast k m set := by
  induction k generalizing m l set with
  | zero => rfl
  | succ k ih =>
    match l, hk with
    | x :: y :: rest, hk =>
      obtain ⟨a, set, rfl⟩ := List.exists_cons_of_length_eq_add_one hp.length_eq
      have hx := leastActive_of_perm hp hl
      have hset : ((a :: set).erase x).Perm (y :: rest) := by simpa using hp.erase x
      obtain ⟨b, set', hset'⟩ := List.exists_cons_of_length_eq_add_one hset.length_eq
      rw [hset'] at hset
      have hy := leastActive_of_perm hset hl.of_cons
      have hrest : ((b :: set').erase y).Perm rest := by simpa using hset.erase y
      rw [mergeNodes_cons, mergeByLeast]
      simp only [hx, hset', hy]
      refine congrArg _ (ih (m + 1) _ _ ?_ ?_ ?_)
      · rw [insertActive_length]; simpa using hk
      · exact (hrest.cons _).trans (insertActive_perm _ _).symm
      · exact insertActive_sorted _ _ hl.of_cons.of_cons

end Sys2Proof.Machine

open Sys2Proof Sys2Proof.Machine

/-- Settles O38: the merges agree because the head of the ordered set is its least member; and the two children of node `256 + i`
are the two first members of the strictly ordered active set after `i` merges. -/
theorem treeBuildTakesTheTwoLeast : Obligations.TreeBuildTakesTheTwoLeast := by
  refine fun count => ⟨fun n h => ?leaf, ?merges, fun m h hm => ?children⟩
  case leaf => rw [treeBuild_leaf count n h]
  case merges =>
    exact (drop_treeNodes count (Nat.zero_le 255)).trans (mergeNodes_eq_mergeByLeast 255 256 _ _
      (by rw [activesAfter, firstActives_length]; decide) (firstActives_perm count).symm (firstActives_sorted count))
  case children =>
    obtain ⟨i, rfl⟩ := Nat.exists_eq_add_of_le hm
    have hi : i < 255 := by omega
    obtain ⟨x, y, rest, hactive, -⟩ := activesAfter_succ count hi
    have hx : x ∈ activesAfter count i := by simp [hactive]
    have hy : y ∈ activesAfter count i := by simp [hactive]
    have hxy := activesAfter_strictly_sorted count hi.le
    rw [hactive] at hxy
    simp only [treeBuild_inner count hi hactive, nodeOf_w_of_mem_activesAfter count hi.le x hx,
      nodeOf_w_of_mem_activesAfter count hi.le y hy, toNat_ofNat_n count hi.le hx, toNat_ofNat_n count hi.le hy]
    exact List.rel_of_pairwise_cons hxy List.mem_cons_self
end

section
/-! SUPPORT. The two-queue method (42_tree_codes R213): the queues hold the active set, and the smaller head is its first member. -/

namespace Sys2Proof.Machine

/-- The queues hold the members of the ordered active set `l`: each is in order itself, every leaf has a smaller index than every
internal node, and `m` is above all of these. That a new node may join the end of its queue rests on `u`: no member weighs less,
and no queued internal node more than twice as much. -/
structure QueuesHold (m u : Nat) (leaves inner l : List Active) : Prop where
  perm : (leaves ++ inner).Perm l
  sorted : l.Pairwise fun a b => b.before a = false
  leavesSorted : leaves.Pairwise fun a b => b.before a = false
  innerSorted : inner.Pairwise fun a b => b.before a = false
  leafFirst : ∀ a ∈ leaves, ∀ b ∈ inner, a.n < b.n
  nLt : ∀ a ∈ l, a.n < m
  above : ∀ a ∈ l, u ≤ a.w
  below : ∀ b ∈ inner, b.w ≤ 2 * u

variable {m u : Nat} {leaves inner l : List Active} {x : Active}

/-- The member of the queues that no other comes before is the first of the active set. -/
theorem QueuesHold.eq_head (h : QueuesHold m u leaves inner (x :: l)) {a : Active} (ha : a ∈ leaves ++ inner)
    (hleast : ∀ b ∈ leaves ++ inner, b.before a = false) : a = x :=
  Active.eq_of_not_before (head_not_before h.sorted a (h.perm.mem_iff.mp ha))
    (hleast x (h.perm.mem_iff.mpr List.mem_cons_self))

/-- Queues that lose the first member of the active set hold the rest of it. -/
theorem QueuesHold.tail (h : QueuesHold m u leaves inner (x :: l)) {leaves' inner' : List Active}
    (hleaves : leaves'.Sublist leaves) (hinner : inner'.Sublist inner)
    (hperm : (leaves ++ inner).Perm (x :: (leaves' ++ inner'))) : QueuesHold m u leaves' inner' l where
  perm := (hperm.symm.trans h.perm).cons_inv
  sorted := h.sorted.of_cons
  leavesSorted := h.leavesSorted.sublist hleaves
  innerSorted := h.innerSorted.sublist hinner
  leafFirst a ha b hb := h.leafFirst a (hleaves.subset ha) b (hinner.subset hb)
  nLt a ha := h.nLt a (List.mem_cons_of_mem x ha)
  above a ha := h.above a (List.mem_cons_of_mem x ha)
  below b hb := h.below b (hinner.subset hb)

/-- The smaller head, the leaf on a tie, is the first member of the active set, and the queues left hold the rest of the set. -/
theorem QueuesHold.takeHead_eq (h : QueuesHold m u leaves inner (x :: l)) :
    ∃ leaves' inner', takeHead leaves inner = some (x, leaves', inner') ∧ QueuesHold m u leaves' inner' l := by
  match leaves, inner with
  | [], [] => exact absurd h.perm.length_eq (Nat.zero_ne_add_one _)
  | a :: as, [] =>
    obtain rfl := h.eq_head List.mem_cons_self (by simpa using head_not_before h.leavesSorted)
    exact ⟨as, [], rfl, h.tail (List.sublist_cons_self a as) (List.Sublist.refl _) (List.Perm.refl _)⟩
  | [], b :: bs =>
    obtain rfl := h.eq_head List.mem_cons_self (by simpa using head_not_before h.innerSorted)
    exact ⟨[], bs, rfl, h.tail (List.Sublist.refl _) (List.sublist_cons_self b bs) (List.Perm.refl _)⟩
  | a :: as, b :: bs =>
    have hn := h.leafFirst a List.mem_cons_self b List.mem_cons_self
    have ha := head_not_before h.leavesSorted
    have hb := head_not_before h.innerSorted
    rw [takeHead]
    split
    case isTrue hab =>
      have hba : b.before a = false := (b.before_eq_false_iff a).mpr (by omega)
      obtain rfl := h.eq_head (a := a) (by simp) (List.forall_mem_append.mpr ⟨ha, fun c hc =>
        Active.not_before_trans hba (hb c hc)⟩)
      exact ⟨as, b :: bs, rfl, h.tail (List.sublist_cons_self a as) (List.Sublist.refl _) (List.Perm.refl _)⟩
    case isFalse hab =>
      have hba : a.before b = false := (a.before_eq_false_iff b).mpr (by omega)
      obtain rfl := h.eq_head (a := b) (by simp) (List.forall_mem_append.mpr ⟨fun c hc =>
        Active.not_before_trans hba (ha c hc), hb⟩)
      exact ⟨a :: as, bs, rfl, h.tail (List.Sublist.refl _) (List.sublist_cons_self b bs) List.perm_middle⟩

/-- The node made of two members `x` and `y` that left the active set joins the end of the queue of internal nodes: no queued one
weighs more, and it weighs no more than twice `y`, which is no heavier than what is left. -/
theorem QueuesHold.push (h : QueuesHold m u leaves inner l) {y : Active} (hux : u ≤ x.w) (hxy : x.w ≤ y.w)
    (hyl : ∀ a ∈ l, y.w ≤ a.w) :
    QueuesHold (m + 1) y.w leaves (inner ++ [⟨x.w + y.w, m⟩]) (insertActive ⟨x.w + y.w, m⟩ l) := by
  have hinserted := insertActive_perm ⟨x.w + y.w, m⟩ l
  have hleaf : ∀ a ∈ leaves, a ∈ l := fun a ha => h.perm.subset (List.mem_append_left inner ha)
  have hinner : ∀ b ∈ inner, b ∈ l := fun b hb => h.perm.subset (List.mem_append_right leaves hb)
  refine ⟨?perm, insertActive_sorted _ _ h.sorted, h.leavesSorted, ?innerSorted, ?leafFirst, ?nLt, ?above, ?below⟩
  case perm =>
    rw [← List.append_assoc]
    exact (List.perm_append_singleton _ _).trans ((h.perm.cons _).trans hinserted.symm)
  case innerSorted =>
    refine List.pairwise_append.mpr ⟨h.innerSorted, List.pairwise_singleton _ _, fun b hb _ hnew => ?_⟩
    obtain rfl := List.mem_singleton.mp hnew
    have hw := h.below b hb
    have hn := h.nLt b (hinner b hb)
    rw [Active.before_eq_false_iff]
    dsimp only
    omega
  case leafFirst =>
    exact fun a ha => List.forall_mem_append.mpr ⟨h.leafFirst a ha, List.forall_mem_singleton.mpr (h.nLt a (hleaf a ha))⟩
  case nLt =>
    refine fun a ha => (List.mem_cons.mp (hinserted.subset ha)).elim (fun e => e ▸ Nat.lt_succ_self m) fun ha => ?_
    exact Nat.lt_succ_of_lt (h.nLt a ha)
  case above =>
    exact fun a ha => (List.mem_cons.mp (hinserted.subset ha)).elim (fun e => e ▸ Nat.le_add_left _ _) (hyl a)
  case below =>
    refine List.forall_mem_append.mpr ⟨fun b hb => (h.below b hb).trans (by omega), List.forall_mem_singleton.mpr ?_⟩
    dsimp only
    omega

/-- Merging from the two queues is merging the active set they hold. -/
theorem mergeTwoQueues_eq_mergeNodes (k : Nat) (hk : k < l.length) (h : QueuesHold m u leaves inner l) :
    mergeTwoQueues k m leaves inner = mergeNodes k m l := by
  induction k generalizing m u leaves inner l with
  | zero => rfl
  | succ k ih =>
    match l, hk with
    | x :: y :: rest, hk =>
      obtain ⟨leaves', inner', hx, hleft⟩ := h.takeHead_eq
      obtain ⟨leaves'', inner'', hy, hrest⟩ := hleft.takeHead_eq
      have hxy := Active.w_le_of_not_before (List.rel_of_pairwise_cons h.sorted List.mem_cons_self)
      have hyl : ∀ a ∈ rest, y.w ≤ a.w := fun a ha =>
        Active.w_le_of_not_before (List.rel_of_pairwise_cons hleft.sorted ha)
      rw [mergeNodes_cons, mergeTwoQueues, hx]
      simp only [hy]
      refine congrArg _ (ih ?_ (hrest.push (h.above x List.mem_cons_self) hxy hyl))
      rw [insertActive_length]
      simpa using hk

/-- Before the first merge the leaves are queued and no internal node is. -/
theorem queuesHold_firstActives (count : Vector (BitVec 32) 256) :
    QueuesHold 256 0 (firstActives count) [] (firstActives count) where
  perm := by rw [List.append_nil]
  sorted := firstActives_sorted count
  leavesSorted := firstActives_sorted count
  innerSorted := List.Pairwise.nil
  leafFirst _ _ _ hb := absurd hb List.not_mem_nil
  nLt := n_lt_of_mem_activesAfter count (Nat.zero_le 255)
  above _ _ := Nat.zero_le _
  below _ hb := absurd hb List.not_mem_nil

/-- The weight of a merge's node is no more than that of the next merge's: of the four members taken, the second is no lighter than
the first and no heavier than the two others. -/
theorem treeBuild_inner_w_mono (count : Vector (BitVec 32) 256) {i : Nat} (hi : i < 254) :
    (treeBuild count)[256 + i].w.toNat ≤ (treeBuild count)[256 + (i + 1)].w.toNat := by
  obtain ⟨x, y, rest, hbefore, hafter⟩ := activesAfter_succ count (i := i) (by omega)
  obtain ⟨x', y', rest', hnext, -⟩ := activesAfter_succ count (i := i + 1) (by omega)
  rw [treeBuild_inner_w count (by omega) hbefore, treeBuild_inner_w count (by omega) hnext]
  have hsorted := activesAfter_sorted count (i := i) (by omega)
  rw [hbefore] at hsorted
  have hxy := Active.w_le_of_not_before (List.rel_of_pairwise_cons hsorted List.mem_cons_self)
  have hy : ∀ a ∈ activesAfter count (i + 1), y.w ≤ a.w := fun a ha => by
    rw [hafter] at ha
    exact (List.mem_cons.mp ((insertActive_perm _ _).subset ha)).elim (fun e => e ▸ Nat.le_add_left _ _)
      fun ha => Active.w_le_of_not_before (List.rel_of_pairwise_cons hsorted.of_cons ha)
  exact Nat.add_le_add (hxy.trans (hy x' (by simp [hnext]))) (hy y' (by simp [hnext]))

end Sys2Proof.Machine

open Sys2Proof Sys2Proof.Machine

/-- Settles O39: the sorted leaves are the active set before the first merge, the queues hold the active set at every merge, and the
members taken never get lighter. -/
theorem twoQueuesBuildTheSameTree : Obligations.TwoQueuesBuildTheSameTree := by
  refine fun count => ⟨firstActives_perm count, activesAfter_strictly_sorted count (Nat.zero_le 255), ?merges,
    fun m h hm => ?monotone⟩
  case merges =>
    exact (drop_treeNodes count (Nat.zero_le 255)).trans (mergeTwoQueues_eq_mergeNodes 255
      (by rw [firstActives_length]; decide) (queuesHold_firstActives count)).symm
  case monotone =>
    obtain ⟨i, rfl⟩ := Nat.exists_eq_add_of_le hm
    exact treeBuild_inner_w_mono count (by omega)
end

section
/-! SUPPORT. The cases of Append and Finish, and the commands that run in HEADER_SENT and PACKING (43_bitpacker R231 to R236). -/

namespace Sys2Proof.Machine

/-! ### The pieces of the packer -/

/-- A byte cut from a number is its low 8 bits, masked before or not. -/
theorem ofNat_and_byteMask (n : Nat) : BitVec.ofNat 8 (n &&& 0xFF) = BitVec.ofNat 8 n :=
  BitVec.ofNat_and.trans BitVec.and_allOnes

/-- Emitting the bytes of a flush, with the mask that R231 writes. -/
theorem Common.emitBytes_flushedBytes (c : Common) (a p n : Nat) :
    c.emitBytes (flushedBytes a p n) = { c with
      output := c.output ++ (List.range n).map fun i => .byte (BitVec.ofNat 8 ((a >>> (p - 8 * (i + 1))) &&& 0xFF))
      outBytes := c.outBytes + BitVec.ofNat 64 n } := by
  simp only [emitBytes, flushedBytes, List.map_map, Function.comp_def, ofNat_and_byteMask, List.length_map, List.length_range]

/-- Append with at most 8 bits pending: nothing is emitted. -/
theorem Enc.append_of_le (e : Enc) (k : Code) (h : e.pkPend.toNat + k.len.toNat ≤ 8) :
    e.append k =
      { e with pkAcc := BitVec.ofNat 8 ((e.pkAcc.toNat <<< k.len.toNat) ||| k.pat.toNat)
               pkPend := BitVec.ofNat 4 (e.pkPend.toNat + k.len.toNat)
               packedBits := e.packedBits + k.len.setWidth 64 } :=
  if_neg (Nat.not_lt.mpr h)

/-- Append with more than 8 bits pending: every complete byte is emitted, and the bits left over stay. -/
theorem Enc.append_of_lt (e : Enc) (k : Code) (h : 8 < e.pkPend.toNat + k.len.toNat) :
    e.append k =
      let a := (e.pkAcc.toNat <<< k.len.toNat) ||| k.pat.toNat
      let p := e.pkPend.toNat + k.len.toNat
      { core := e.core.emitBytes (flushedBytes a p (p / 8))
        pkAcc := BitVec.ofNat 8 (a &&& (2 ^ (p % 8) - 1))
        pkPend := BitVec.ofNat 4 (p % 8)
        packedBits := e.packedBits + k.len.setWidth 64 } :=
  if_pos h

/-- Finish with bits pending: the final byte and EOS, and FIN_TBC the number of these bits (R235). -/
theorem Enc.finish_of_pending (e : Enc) (h : 0 < e.pkPend.toNat) :
    e.finish = { e with
      pkAcc := 0, pkPend := 0
      core := { e.core with
        output := e.core.output ++ [.byte e.finalByte, .eos]
        outBytes := e.core.outBytes + 1
        auxTbc := e.pkPend.setWidth 8, auxValid := true } } := by
  simp [Enc.finish, h, Common.emit, Common.emitBytes, Token.bytes]

/-- Finish with nothing pending: EOS alone, and FIN_TBC 8 (R235). -/
theorem Enc.finish_of_none_pending (e : Enc) (h : e.pkPend = 0) :
    e.finish = { e with
      pkAcc := 0
      core := { e.core with output := e.core.output ++ [.eos], auxTbc := 8, auxValid := true } } := by
  simp [Enc.finish, h, Common.emit, Token.bytes]

/-- E.FINISH with totals that differ (R235). -/
theorem Enc.finishBody_of_ne (e : Enc) (h : e.packedBits ≠ e.core.totalBits) :
    e.finishBody = .raised (e.raise .passMismatch) :=
  if_pos h

/-- E.FINISH with totals that agree (R236). -/
theorem Enc.finishBody_of_eq (e : Enc) (h : e.packedBits = e.core.totalBits) : e.finishBody = .fin e.finish .finished :=
  if_neg (not_not.mpr h)

/-! ### HEADER_SENT and PACKING -/

/-- In HEADER_SENT or PACKING a command of the packer runs its body. -/
theorem runEnc_inPhase_packer (s : State) (b : Body Enc) (h : s.enc.core.phase = .headerSent ∨ s.enc.core.phase = .packing) :
    runEnc s (s.enc.inPhase [.headerSent, .packing] b) = runEnc s b := by
  rw [Enc.inPhase_of_mem _ _ _ (List.mem_pair.mpr h)]

/-- In every other phase it raises SEQUENCE (40_command_model R155). -/
theorem runEnc_inPhase_packer_raise (s : State) (b : Body Enc) (hsent : s.enc.core.phase ≠ .headerSent)
    (hpacking : s.enc.core.phase ≠ .packing) :
    runEnc s (s.enc.inPhase [.headerSent, .packing] b) =
      .next (withError .enc .sequence (s.enc.core.cur.extractLsb' 0 8) s) := by
  rw [Enc.inPhase_of_not_mem _ _ _ (fun h => (List.mem_pair.mp h).elim hsent hpacking), runEnc_raise]

end Sys2Proof.Machine

open Sys2Proof Sys2Proof.Machine

/-- Settles O22: Append's two cases, with the mask of R231 on every emitted byte. -/
theorem appendFlushesAboveEightBits : Obligations.AppendFlushesAboveEightBits := by
  intro e k a p
  refine ⟨fun hle => ?kept, fun hlt => ?flushed⟩
  case kept => rw [Enc.append_of_le e k hle, BitVec.ofNat_toNat]
  case flushed => simp only [Enc.append_of_lt e k hlt, Common.emitBytes_flushedBytes, BitVec.ofNat_toNat, a, p]

/-- Settles O23: the row of opcode 0x07 is of format F1, and E.PACK is one micro-step, an Append that completes. -/
theorem packAppendsOneCode : Obligations.PackAppendsOneCode := by
  refine ⟨onlySymbolWords_of_find? .enc ⟨0x07, .f1, .ePack⟩ rfl rfl, fun s sym => ⟨
    fun hsent hpacking => EndsIn.of_eq .enc _ _ ?outOfPhase, fun hphase => EndsIn.of_eq .enc _ _ ?appended⟩⟩
  case outOfPhase => exact runEnc_inPhase_packer_raise s _ hsent hpacking
  case appended => exact runEnc_inPhase_packer s _ hphase

/-- Settles O25: the row of opcode 0x09 is of format F0, and E.FINISH splits on PHASE, on the totals and on PK_PEND. -/
theorem finishFlushesOrRaises : Obligations.FinishFlushesOrRaises := by
  refine ⟨onlyWord_of_find? .enc ⟨0x09, .f0, fun _ => .eFinish⟩ rfl rfl, fun s => ⟨
    fun hsent hpacking => EndsIn.of_eq .enc _ _ ?outOfPhase, fun hphase => ?inPhase⟩⟩
  case outOfPhase => exact runEnc_inPhase_packer_raise s _ hsent hpacking
  case inPhase =>
    have hexec : exec .eFinish s = runEnc s s.enc.finishBody := runEnc_inPhase_packer s _ hphase
    rw [hexec]
    refine ⟨fun hne => EndsIn.of_eq .enc _ _ ?mismatch, fun heq hpend => EndsIn.of_eq .enc _ _ ?pending,
      fun heq hnone => EndsIn.of_eq .enc _ _ ?nonePending⟩
    case mismatch => rw [Enc.finishBody_of_ne _ hne, runEnc_raise]
    case pending => rw [Enc.finishBody_of_eq _ heq, Enc.finish_of_pending _ hpend, ofNat_and_byteMask]; rfl
    case nonePending => rw [Enc.finishBody_of_eq _ heq, Enc.finish_of_none_pending _ hnone]; rfl
end

section
/-! SUPPORT. A completion that runs in any phase, and the bytes E.EMIT_HEADER writes (45_encoder_control R270, R271, R275;
46_decoder_control R290, R291). -/

namespace Sys2Proof.Machine

/-- An ENC body at its end completes with whatever unit `e` it left behind (40_command_model R158). -/
theorem runEnc_fin_endsIn (s : State) (e : Enc) (p : Phase) :
    EndsIn .enc (runEnc s (.fin e p)) { s with enc := e.withCore (e.core.complete p) } :=
  EndsIn.of_eq .enc _ _ rfl

/-- The same in DEC. -/
theorem runDec_fin_endsIn (s : State) (d : Dec) (p : Phase) :
    EndsIn .dec (runDec s (.fin d p)) { s with dec := d.withCore (d.core.complete p) } :=
  EndsIn.of_eq .dec _ _ rfl

/-- Emitting the header and one more byte: 1025 bytes, every count's four with the most significant first. -/
theorem Common.emitBytes_header (c : Common) (b : Byte) :
    c.emitBytes (headerBytes c.count ++ [b]) = { c with
      output := c.output ++ c.count.toList.flatMap (fun v =>
        [.byte (v.extractLsb' 24 8), .byte (v.extractLsb' 16 8), .byte (v.extractLsb' 8 8), .byte (v.extractLsb' 0 8)]) ++
        [.byte b]
      outBytes := c.outBytes + 1025 } := by
  have hlen : (headerBytes c.count ++ [b]).length = 1025 := by
    rw [List.length_append, length_headerBytes, List.length_singleton]
  have htokens : (headerBytes c.count).map Token.byte = c.count.toList.flatMap (fun v => (countBytes v).map Token.byte) :=
    List.map_flatMap
  rw [emitBytes, hlen, List.map_append, htokens, ← List.append_assoc]
  rfl

end Sys2Proof.Machine

open Sys2Proof Sys2Proof.Machine

/-- Settles O14: the rows of opcode 0x00 are of format F0, and NOP completes with the PHASE it found. -/
theorem nopCompletes : Obligations.NopCompletes :=
  ⟨onlyWord_of_find? .enc ⟨0x00, .f0, fun _ => .eNop⟩ rfl rfl, onlyWord_of_find? .dec ⟨0x00, .f0, fun _ => .dNop⟩ rfl rfl,
    fun s => ⟨runEnc_fin_endsIn s s.enc s.enc.core.phase, runDec_fin_endsIn s s.dec s.dec.core.phase⟩⟩

/-- Settles O15: the rows of opcode 0x01 are of format F0, and CLEAR completes in COUNTING or READY with the cleared unit;
`countInit` ends as `true`. -/
theorem clearStartsARun : Obligations.ClearStartsARun :=
  ⟨onlyWord_of_find? .enc ⟨0x01, .f0, fun _ => .eClear⟩ rfl rfl, onlyWord_of_find? .dec ⟨0x01, .f0, fun _ => .dClear⟩ rfl rfl,
    fun s => ⟨⟨true, runEnc_fin_endsIn s ⟨s.enc.core.clearBody, 0, 0, 0⟩ .counting⟩,
      ⟨true, runDec_fin_endsIn s { (s.dec.withCore s.dec.core.clearBody).rewind with consumedBits := 0, eop := false } .ready⟩⟩⟩

/-- Settles O21: the row of opcode 0x06 is of format F0, and E.EMIT_HEADER is one micro-step that emits the header and
CALC_TBC in CODES_READY and raises SEQUENCE in every other phase. -/
theorem emitHeaderWritesCountsAndTbc : Obligations.EmitHeaderWritesCountsAndTbc := by
  refine ⟨onlyWord_of_find? .enc ⟨0x06, .f0, fun _ => .eEmitHeader⟩ rfl rfl,
    fun s => ⟨fun hphase => ?emitted, runEnc_inPhase_raise s .codesReady _⟩⟩
  case emitted =>
    have hends : EndsIn .enc (exec .eEmitHeader s) (s.setCore .enc
        ((s.enc.core.emitBytes (headerBytes s.enc.core.count ++ [s.enc.core.calcTbc.setWidth 8])).complete .headerSent)) :=
      runEnc_inPhase_fin s .codesReady .headerSent _ hphase
    rw [Common.emitBytes_header] at hends
    exact hends
end

section
/-! SUPPORT. D.CHECK_TBC in CODES_READY, by the oldest input token: none, EOS, a byte that differs from CALC_TBC, and a byte equal to
it (46_decoder_control R293). -/

namespace Sys2Proof.Machine

/-- An error raised after the micro-step has changed the common part into `c` keeps that change (60_exceptions R320). -/
theorem runDec_withCore_raise (s : State) (c : Common) (k : Cause) :
    runDec s (.raised ((s.dec.withCore c).raise k)) =
      .next (withError .dec k (c.cur.extractLsb' 0 8) (s.setCore .dec c)) :=
  runDec_raise (s.setCore .dec c) k

/-- The comparison with CALC_TBC, a field of 4 bits, is one of numbers: nothing of the stored byte is cut off. -/
theorem eq_setWidth_iff_toNat_eq (v : Byte) (n : BitVec 4) : v = n.setWidth 8 ↔ v.toNat = n.toNat := by
  rw [← BitVec.toNat_inj, BitVec.toNat_setWidth_of_le (by decide)]

section
variable (d : Dec) (rest : List Token) (v : Byte) (hphase : d.core.phase = .codesReady)
include hphase

theorem Dec.checkTbcBody_of_nil (hinput : d.core.input = []) : d.checkTbcBody = .hold := by
  rw [checkTbcBody, inPhase_of_mem _ _ _ (List.mem_singleton.mpr hphase), d.core.peek_zero_nil hinput]

theorem Dec.checkTbcBody_of_eos (hinput : d.core.input = .eos :: rest) :
    d.checkTbcBody = .raised ((d.withCore { d.core with input := rest }).raise .missingTbc) := by
  rw [checkTbcBody, inPhase_of_mem _ _ _ (List.mem_singleton.mpr hphase), d.core.peek_zero_cons _ _ hinput,
    d.core.consume_eos _ hinput]

theorem Dec.checkTbcBody_of_byte_ne (hinput : d.core.input = .byte v :: rest) (hne : v.toNat ≠ d.core.calcTbc.toNat) :
    d.checkTbcBody = .raised ((d.withCore { d.core with
      input := rest, inBytes := d.core.inBytes + 1, auxTbc := v, auxValid := true }).raise .tbcMismatch) := by
  rw [checkTbcBody, inPhase_of_mem _ _ _ (List.mem_singleton.mpr hphase), d.core.peek_zero_cons _ _ hinput,
    d.core.consume_byte _ _ hinput]
  exact if_pos (mt (eq_setWidth_iff_toNat_eq v _).mp hne)

theorem Dec.checkTbcBody_of_byte_eq (hinput : d.core.input = .byte v :: rest) (heq : v.toNat = d.core.calcTbc.toNat) :
    d.checkTbcBody = .fin (d.withCore { d.core with
      input := rest, inBytes := d.core.inBytes + 1, auxTbc := v, auxValid := true }).rewind .decoding := by
  rw [checkTbcBody, inPhase_of_mem _ _ _ (List.mem_singleton.mpr hphase), d.core.peek_zero_cons _ _ hinput,
    d.core.consume_byte _ _ hinput]
  exact if_neg (not_not.mpr ((eq_setWidth_iff_toNat_eq v _).mpr heq))

end

end Sys2Proof.Machine

open Sys2Proof Sys2Proof.Machine

/-- Settles O28: the row of opcode 0x06 is of format F0, and D.CHECK_TBC splits on PHASE, on the oldest token and on its comparison
with CALC_TBC. -/
theorem checkTbcComparesTheStoredByte : Obligations.CheckTbcComparesTheStoredByte := by
  refine ⟨onlyWord_of_find? .dec ⟨0x06, .f0, fun _ => .dCheckTbc⟩ rfl rfl, fun s => ?_⟩
  have hexec : exec .dCheckTbc s = runDec s s.dec.checkTbcBody := rfl
  rw [hexec]
  refine ⟨runDec_inPhase_raise s .codesReady _, fun hphase hinput => ?noToken, fun rest hphase hinput => ?atEos,
    fun v rest hphase hinput hne => ?mismatch, fun v rest hphase hinput heq => ?equal⟩
  case noToken => rw [s.dec.checkTbcBody_of_nil hphase hinput]; rfl
  case atEos =>
    rw [s.dec.checkTbcBody_of_eos rest hphase hinput]
    exact EndsIn.of_eq .dec _ _ (runDec_withCore_raise s _ .missingTbc)
  case mismatch =>
    rw [s.dec.checkTbcBody_of_byte_ne rest v hphase hinput hne]
    exact EndsIn.of_eq .dec _ _ (runDec_withCore_raise s _ .tbcMismatch)
  case equal =>
    rw [s.dec.checkTbcBody_of_byte_eq rest v hphase hinput heq]
    exact runDec_fin_endsIn s _ .decoding
end

section
/-! The interrupt output (60_exceptions R330): what each operation that writes STATUS or IRQ_EN leaves of it. -/

namespace Sys2Proof.Machine

/-- R330's formula with ERR read off PHASE (10_state R39). -/
theorem Common.irq_eq (c : Common) : c.irq = ((c.done && c.doneIe) || (decide (c.phase = .error) && c.errIe)) := rfl

/-- With DONE at 0 only an enabled error is left. -/
theorem Common.irq_of_done_eq_false (c : Common) (hdone : c.done = false) :
    c.irq = (decide (c.phase = .error) && c.errIe) := by
  rw [irq_eq, hdone, Bool.false_and, Bool.false_or]

theorem Common.irq_of_enables_eq_false (c : Common) (hdoneIe : c.doneIe = false) (herrIe : c.errIe = false) :
    c.irq = false := by
  rw [irq_eq, hdoneIe, herrIe, Bool.and_false, Bool.and_false, Bool.or_false]

theorem Common.complete_irq (c : Common) (p : Phase) :
    (c.complete p).irq = (c.doneIe || (decide (p = .error) && c.errIe)) := by
  rw [irq_eq, complete_done, complete_phase, complete_doneIe, complete_errIe, Bool.true_and]

theorem Common.complete_irq_of_ne_error (c : Common) (p : Phase) (hp : p ≠ .error) : (c.complete p).irq = c.doneIe := by
  rw [complete_irq, decide_eq_false hp, Bool.false_and, Bool.or_false]

theorem Common.errorEntry_irq (c : Common) (k : Cause) (opc : Byte) :
    (c.errorEntry k opc).irq = ((c.done && c.doneIe) || c.errIe) := by
  rw [irq_eq, errorEntry_done, errorEntry_phase, errorEntry_doneIe, errorEntry_errIe, decide_eq_true rfl, Bool.true_and]

theorem Common.accept_irq (c : Common) (w : Word) : (c.accept w).irq = (decide (c.phase = .error) && c.errIe) :=
  (c.accept w).irq_of_done_eq_false (c.accept_done w)

/-- Bit 1 of STATUS is write-one-to-clear (10_state R37). -/
theorem Common.regWrite_status_done_eq_false (c : Common) (v : Word) (hv : v.getLsbD 1 = true) :
    (c.regWrite .status v).done = false := by
  simp [regWrite, hv]

theorem Common.regWrite_status_irq (c : Common) (v : Word) (hv : v.getLsbD 1 = true) :
    (c.regWrite .status v).irq = (decide (c.phase = .error) && c.errIe) :=
  (c.regWrite .status v).irq_of_done_eq_false (c.regWrite_status_done_eq_false v hv)

theorem State.reset_core (u : UnitId) : State.reset.core u = Common.reset := by
  cases u <;> rfl

theorem Common.reset_irq : Common.reset.irq = false :=
  Common.reset.irq_of_enables_eq_false rfl rfl

end Sys2Proof.Machine

open Sys2Proof Sys2Proof.Machine

/-- Settles O60: each operation's effect on DONE, PHASE and the two enables, put into R330's formula. -/
theorem irqFollowsStatusAndEnables : Obligations.IrqFollowsStatusAndEnables := fun c =>
  ⟨c.irq_eq, c.complete_irq, c.errorEntry_irq, c.regWrite_status_irq, c.accept_irq,
    fun p hp => c.clearBody.complete_irq_of_ne_error p hp,
    fun v hdoneIe herrIe => (c.regWrite .irqEn v).irq_of_enables_eq_false hdoneIe herrIe,
    fun u => (State.reset_core u).symm ▸ Common.reset_irq⟩
end

section
/-! SUPPORT. The rows of an opcode map (30_encoding R124, R125): an opcode finds its one row, and a word is legal exactly when its row
takes its other two fields (R126, R127). -/

namespace Sys2Proof

open Machine

/-- The per-command family for every command. -/
theorem encodingFields (i : Instr) : Laws.EncodingFields.Statement i := by
  cases i
  case eNop => exact Laws.EncodingFields.eNop
  case eClear => exact Laws.EncodingFields.eClear
  case eAccum sym => exact Laws.EncodingFields.eAccum sym
  case eAccumStream => exact Laws.EncodingFields.eAccumStream
  case eBuildTree => exact Laws.EncodingFields.eBuildTree
  case eGenCodes => exact Laws.EncodingFields.eGenCodes
  case eEmitHeader => exact Laws.EncodingFields.eEmitHeader
  case ePack sym => exact Laws.EncodingFields.ePack sym
  case ePackStream => exact Laws.EncodingFields.ePackStream
  case eFinish => exact Laws.EncodingFields.eFinish
  case ePrepare => exact Laws.EncodingFields.ePrepare
  case eDrain => exact Laws.EncodingFields.eDrain
  case dNop => exact Laws.EncodingFields.dNop
  case dClear => exact Laws.EncodingFields.dClear
  case dLoadHeader => exact Laws.EncodingFields.dLoadHeader
  case dBuildTree => exact Laws.EncodingFields.dBuildTree
  case dGenCodes => exact Laws.EncodingFields.dGenCodes
  case dCheckTbc => exact Laws.EncodingFields.dCheckTbc
  case dWalk => exact Laws.EncodingFields.dWalk
  case dDecodeStream => exact Laws.EncodingFields.dDecodeStream
  case dDrain => exact Laws.EncodingFields.dDrain
  case dRun => exact Laws.EncodingFields.dRun

/-- No opcode stands twice in a map. -/
theorem nodup_opc (u : UnitId) : ((opcodeMap u).map OpcodeRow.opc).Nodup := by
  cases u <;> decide

/-- A row is found by its opcode. -/
theorem find?_opc_of_mem (u : UnitId) {row : OpcodeRow} (hrow : row ∈ opcodeMap u) :
    (opcodeMap u).find? (fun r => decide (r.opc = row.opc)) = some row := by
  obtain ⟨found, hfound⟩ := Option.isSome_iff_exists.mp
    (List.find?_isSome (p := fun r : OpcodeRow => decide (r.opc = row.opc)).mpr ⟨row, hrow, decide_eq_true rfl⟩)
  have hopc : found.opc = row.opc := of_decide_eq_true (List.find?_some (p := fun r : OpcodeRow => decide (r.opc = row.opc)) hfound)
  rw [hfound, List.inj_on_of_nodup_map (nodup_opc u) (List.mem_of_find?_eq_some hfound) hrow hopc]

/-- What a row makes of a symbol has the row's opcode, the symbol as its operand unless the format is F0, and the map's unit. -/
theorem opcodeMap_make (u : UnitId) {row : OpcodeRow} (hrow : row ∈ opcodeMap u) (imm : Byte)
    (himm : row.fmt = .f0 → imm = 0) :
    (row.make imm).opcode = row.opc ∧ (row.make imm).operand = imm ∧ (row.make imm).unit = u := by
  cases u <;> simp only [opcodeMap, encOpcodeMap, decOpcodeMap, List.mem_cons, List.not_mem_nil, or_false] at hrow
  case enc =>
    obtain rfl | rfl | rfl | rfl | rfl | rfl | rfl | rfl | rfl | rfl | rfl | rfl := hrow
    case inr.inr.inl | inr.inr.inr.inr.inr.inr.inr.inl => exact ⟨rfl, rfl, rfl⟩
    all_goals exact ⟨rfl, (himm rfl).symm, rfl⟩
  case dec =>
    obtain rfl | rfl | rfl | rfl | rfl | rfl | rfl | rfl | rfl | rfl := hrow
    all_goals exact ⟨rfl, (himm rfl).symm, rfl⟩

/-- A row takes a word's other two fields exactly when RSV is 0 and, in format F0, IMM is 0 (R126). -/
theorem OpcodeRow.read_eq_ok_iff (row : OpcodeRow) (imm : Byte) (rsv : BitVec 16) (i : Instr) :
    row.read imm rsv = .ok i ↔ rsv = 0 ∧ (row.fmt = .f0 → imm = 0) ∧ row.make imm = i := by
  unfold OpcodeRow.read
  split
  case isTrue hrsv => exact iff_of_false nofun fun h => hrsv h.1
  case isFalse hrsv =>
    split
    case isTrue himm => exact iff_of_false nofun fun h => himm.2 (h.2.1 himm.1)
    case isFalse himm =>
      rw [Decoded.ok.injEq]
      exact ⟨fun h => ⟨not_not.mp hrsv, fun hf => not_not.mp fun hne => himm ⟨hf, hne⟩, h⟩, fun h => h.2.2⟩

/-- A word means a command exactly when a row of the unit's map has its opcode and takes its other fields. -/
theorem decode_eq_ok_iff (u : UnitId) (w : Word) (i : Instr) :
    decode u w = .ok i ↔ ∃ row ∈ opcodeMap u, row.opc = opcField w ∧
      rsvField w = 0 ∧ (row.fmt = .f0 → immField w = 0) ∧ row.make (immField w) = i := by
  constructor
  · intro h
    unfold decode at h
    split at h
    · cases h
    next row hfind =>
      exact ⟨row, List.mem_of_find?_eq_some hfind,
          of_decide_eq_true (List.find?_some (p := fun r : OpcodeRow => decide (r.opc = opcField w)) hfind),
        (row.read_eq_ok_iff _ _ i).mp h⟩
  · rintro ⟨row, hrow, hopc, hread⟩
    rw [decode_of_find? u row w (find?_opc_of_mem u hrow) hopc.symm]
    exact (row.read_eq_ok_iff _ _ i).mpr hread

/-- A word is illegal exactly when it means no command. -/
theorem exists_illegal_iff (u : UnitId) (w : Word) :
    (∃ why, decode u w = .illegal why) ↔ ¬ ∃ i, decode u w = .ok i := by
  cases decode u w <;> simp

/-- A word is legal exactly when its opcode is assigned, its RSV is 0, and its IMM is 0 in format F0 (R126). -/
theorem exists_decode_eq_ok_iff (u : UnitId) (w : Word) :
    (∃ i, decode u w = .ok i) ↔ ∃ row ∈ opcodeMap u, row.opc = opcField w ∧
      rsvField w = 0 ∧ (row.fmt = .f0 → immField w = 0) := by
  simp only [decode_eq_ok_iff]
  exact ⟨fun ⟨i, row, hrow, hopc, hrsv, himm, _⟩ => ⟨row, hrow, hopc, hrsv, himm⟩,
    fun ⟨row, hrow, hopc, hrsv, himm⟩ => ⟨_, row, hrow, hopc, hrsv, himm, rfl⟩⟩

/-- The opcodes of format F1 are ENC's 0x02 and 0x07 (R124, R125). -/
theorem exists_f1_opc_iff (u : UnitId) (opc : Byte) :
    (∃ row ∈ opcodeMap u, row.opc = opc ∧ row.fmt = .f1) ↔ ¬ (u = .dec ∨ opc ∉ ([0x02, 0x07] : List Byte)) := by
  cases u <;> simp [opcodeMap, encOpcodeMap, decOpcodeMap, -BitVec.ofNat_eq_ofNat, eq_comm (b := opc)]
  exact or_iff_not_imp_left

/-- With IMM other than 0, a row takes the word only in format F1. -/
theorem fmt_f0_imp_iff {imm : Byte} (himm : imm ≠ 0) (fmt : Format) : (fmt = .f0 → imm = 0) ↔ fmt = .f1 := by
  cases fmt
  · exact iff_of_false (fun h => himm (h rfl)) nofun
  · exact iff_of_true nofun rfl

/-- A word is illegal exactly for one of R126's three reasons. -/
theorem exists_illegal_iff_fields (u : UnitId) (w : Word) :
    (∃ why, decode u w = .illegal why) ↔ opcField w ∉ (opcodeMap u).map OpcodeRow.opc ∨ rsvField w ≠ 0 ∨
      ((u = .dec ∨ opcField w ∉ ([0x02, 0x07] : List Byte)) ∧ immField w ≠ 0) := by
  rw [exists_illegal_iff, exists_decode_eq_ok_iff, List.mem_map]
  by_cases hrsv : rsvField w = 0
  case neg => exact iff_of_true (fun ⟨_, _, _, h, _⟩ => hrsv h) (.inr (.inl hrsv))
  by_cases himm : immField w = 0
  case pos => simp only [hrsv, himm, implies_true, and_true, ne_eq, not_true_eq_false, and_false, or_false]
  case neg =>
    simp only [hrsv, fmt_f0_imp_iff himm, true_and, exists_f1_opc_iff u (opcField w), not_not]
    refine ⟨fun h => .inr (.inr ⟨h, himm⟩), fun h => not_not.mp fun hf1 => ?_⟩
    obtain ⟨row, hrow, hopc, -⟩ := (exists_f1_opc_iff u (opcField w)).mpr hf1
    exact h.elim (fun hnone => hnone ⟨row, hrow, hopc⟩) fun h => h.elim (fun hne => hne rfl) fun h => hf1 h.1

end Sys2Proof

open Sys2Proof Sys2Proof.Machine

/-- Settles O1: the command's own row is the one its word's opcode finds, and it takes the word's other fields. -/
theorem decodeOfEncode : Obligations.DecodeOfEncode := by
  intro u i hwf
  obtain rfl : i.unit = u := of_decide_eq_true hwf
  obtain ⟨hopc, himm, hrsv, hzero, row, hrow, hropc, hfmt, hmake⟩ := encodingFields i
  exact (decode_eq_ok_iff _ _ _).mpr
    ⟨row, hrow, hropc.trans hopc.symm, hrsv, fun hf => himm.trans (hzero (hfmt ▸ hf)), himm ▸ hmake⟩

/-- Settles O2: the row a word was read by gives back its opcode and operand, and RSV is 0, so its three fields are the command's. -/
theorem encodeOfDecode : Obligations.EncodeOfDecode := by
  intro u w i hdec
  obtain ⟨row, hrow, hopc, hrsv, himm, rfl⟩ := (decode_eq_ok_iff u w i).mp hdec
  obtain ⟨hopcode, hoperand, hunit⟩ := opcodeMap_make u hrow _ himm
  refine ⟨?_, decide_eq_true hunit⟩
  rw [encode, hoperand, hopcode, hopc, ← hrsv]
  exact fields_append w

/-- Settles O3: no row of the unit's map takes the word; with IMM at 0 every row of its opcode would, else only one of format F1. -/
theorem illegalWordsExactly : Obligations.IllegalWordsExactly := by
  intro u w
  cases u <;> exact exists_illegal_iff_fields _ w

/-- Settles O4: each word is read by its row. -/
theorem sampleWordsDecode : Obligations.SampleWordsDecode := by
  unfold Obligations.SampleWordsDecode
  decide
end

section
/-! SUPPORT. Everything a micro-step of a command can do to its unit (40_command_model R156), one constructor per way: the unit
it leaves, and what it found in PHASE and at the head of the input. What commands keep or write is read off these. -/

namespace Sys2Proof.Machine

/-! ### The encoder -/

/-- ENC, by one micro-step of command `i`, may become the unit given last. -/
inductive Enc.StepsTo (e : Enc) : Instr → Enc → Prop
  | holds (i : Instr) : StepsTo e i e
  | raises (i : Instr) (k : Cause) (hk : k ∈ raisedBy i) : StepsTo e i (e.raise k)
  | nop : StepsTo e .eNop (e.withCore (e.core.complete e.core.phase))
  | clear : StepsTo e .eClear
      { core := e.core.clearBody.complete .counting, pkAcc := 0, pkPend := 0, packedBits := 0 }
  | accum (sym : Symbol) (hphase : e.core.phase = .counting) :
      StepsTo e (.eAccum sym) (e.withCore ((e.core.setCount sym (e.core.countAt sym + 1)).complete .counting))
  | accumByte (b : Byte) (rest : List Token) (hphase : e.core.phase = .counting) (hinput : e.core.input = .byte b :: rest) :
      StepsTo e .eAccumStream (e.withCore (e.core.consume.setCount b (e.core.countAt b + 1)).goOn)
  | accumOverflow (b : Byte) (rest : List Token) (hinput : e.core.input = .byte b :: rest) :
      StepsTo e .eAccumStream ((e.withCore e.core.consume).raise .countOverflow)
  | accumEnd (rest : List Token) (hphase : e.core.phase = .counting) (hinput : e.core.input = .eos :: rest) :
      StepsTo e .eAccumStream (e.withCore (e.core.consume.complete .counting))
  | buildTree (hphase : e.core.phase = .counting) :
      StepsTo e .eBuildTree (e.withCore (e.core.buildTree.complete .treeBuilt))
  | genCodes (hphase : e.core.phase = .treeBuilt) :
      StepsTo e .eGenCodes (e.withCore (e.core.genCodes.complete .codesReady))
  | emitHeader (i : Instr) (hi : i = .eEmitHeader ∨ i = .ePrepare) (hphase : e.core.phase = .codesReady) :
      StepsTo e i (e.withCore ((e.core.emitBytes
        (headerBytes e.core.count ++ [e.core.calcTbc.setWidth 8])).complete .headerSent))
  | pack (sym : Symbol) (hphase : e.core.phase = .headerSent ∨ e.core.phase = .packing) :
      StepsTo e (.ePack sym)
        ((e.append (e.core.codeAt sym)).withCore ((e.append (e.core.codeAt sym)).core.complete .packing))
  | packByte (b : Byte) (rest : List Token) (hphase : e.core.phase = .headerSent ∨ e.core.phase = .packing)
      (hinput : e.core.input = .byte b :: rest) :
      StepsTo e .ePackStream (((e.withCore e.core.consume).append (e.core.codeAt b)).withCore
        ((e.withCore e.core.consume).append (e.core.codeAt b)).core.goOn)
  | packEnd (rest : List Token) (hphase : e.core.phase = .headerSent ∨ e.core.phase = .packing)
      (hinput : e.core.input = .eos :: rest) :
      StepsTo e .ePackStream (e.withCore (e.core.consume.complete .packing))
  | finish (hphase : e.core.phase = .headerSent ∨ e.core.phase = .packing) :
      StepsTo e .eFinish (e.finish.withCore (e.finish.core.complete .finished))
  | prepareTree (hphase : e.core.phase = .counting) :
      StepsTo e .ePrepare (e.withCore (e.core.buildTree.handOver .treeBuilt 1).goOn)
  | prepareCodes (hphase : e.core.phase = .treeBuilt) :
      StepsTo e .ePrepare (e.withCore (e.core.genCodes.handOver .codesReady 2).goOn)
  | drainByte (b : Byte) (rest : List Token) (hinput : e.core.input = .byte b :: rest) :
      StepsTo e .eDrain (e.withCore e.core.consume.goOn)
  | drainEnd (rest : List Token) (hinput : e.core.input = .eos :: rest) :
      StepsTo e .eDrain (e.withCore (e.core.consume.complete e.core.phase))

/-- A command with a phase requirement raises SEQUENCE, or its body has run in one of its phases. -/
theorem Enc.stepsTo_inPhase (e : Enc) (i : Instr) (ps : List Phase) (b : Body Enc) (hi : .sequence ∈ raisedBy i)
    (h : e.core.phase ∈ ps → e.StepsTo i (e.after b)) : e.StepsTo i (e.after (e.inPhase ps b)) := by
  by_cases hphase : e.core.phase ∈ ps
  · rw [Enc.inPhase_of_mem _ _ _ hphase]
    exact h hphase
  · rw [Enc.inPhase_of_not_mem _ _ _ hphase]
    exact .raises i .sequence hi

theorem Enc.stepsTo_accumStream (e : Enc) (hphase : e.core.phase = .counting) :
    e.StepsTo .eAccumStream (e.after e.accumStreamBody) := by
  match hinput : e.core.input with
  | [] =>
    rw [accumStreamBody, e.core.peek_zero_nil hinput]
    exact .holds _
  | .eos :: rest =>
    rw [accumStreamBody, e.core.peek_zero_cons _ _ hinput]
    exact .accumEnd rest hphase hinput
  | .byte b :: rest =>
    rw [accumStreamBody, e.core.peek_zero_cons _ _ hinput]
    by_cases hmax : (e.withCore e.core.consume).core.count[b.toNat] = 0xFFFFFFFF
    · dsimp only
      rw [Enc.countOne_of_eq_max _ _ _ hmax]
      exact .accumOverflow b rest hinput
    · dsimp only
      rw [Enc.countOne_of_ne_max _ _ _ hmax]
      have hsame : (e.withCore e.core.consume).core.count[b.toNat] = e.core.countAt b := by
        simp [Common.countAt]
      rw [hsame]
      exact .accumByte b rest hphase hinput

theorem Enc.stepsTo_packStream (e : Enc) (hphase : e.core.phase = .headerSent ∨ e.core.phase = .packing) :
    e.StepsTo .ePackStream (e.after e.packStreamBody) := by
  match hinput : e.core.input with
  | [] =>
    rw [packStreamBody, e.core.peek_zero_nil hinput]
    exact .holds _
  | .eos :: rest =>
    rw [packStreamBody, e.core.peek_zero_cons _ _ hinput]
    exact .packEnd rest hphase hinput
  | .byte b :: rest =>
    rw [packStreamBody, e.core.peek_zero_cons _ _ hinput]
    exact .packByte b rest hphase hinput

theorem Enc.stepsTo_finish (e : Enc) (hphase : e.core.phase = .headerSent ∨ e.core.phase = .packing) :
    e.StepsTo .eFinish (e.after e.finishBody) := by
  by_cases hbits : e.packedBits = e.core.totalBits
  · rw [finishBody_of_eq _ hbits]
    exact .finish hphase
  · rw [finishBody_of_ne _ hbits]
    exact .raises _ .passMismatch (by decide)

theorem Enc.stepsTo_emitHeader (e : Enc) (i : Instr) (hi : i = .eEmitHeader ∨ i = .ePrepare) :
    e.StepsTo i (e.after e.emitHeaderBody) :=
  e.stepsTo_inPhase i _ _ (by rcases hi with rfl | rfl <;> decide) fun hphase =>
    .emitHeader i hi (List.mem_singleton.mp hphase)

theorem Enc.stepsTo_prepare (e : Enc) : e.StepsTo .ePrepare (e.after e.prepareBody) := by
  unfold prepareBody
  split
  · unfold buildTreeBody
    by_cases hphase : e.core.phase = .counting
    · rw [Enc.inPhase_of_mem _ _ _ (List.mem_singleton.mpr hphase)]
      exact .prepareTree hphase
    · rw [Enc.inPhase_of_not_mem _ _ _ (mt List.mem_singleton.mp hphase)]
      exact .raises _ .sequence (by decide)
  · unfold genCodesBody
    by_cases hphase : e.core.phase = .treeBuilt
    · rw [Enc.inPhase_of_mem _ _ _ (List.mem_singleton.mpr hphase)]
      exact .prepareCodes hphase
    · rw [Enc.inPhase_of_not_mem _ _ _ (mt List.mem_singleton.mp hphase)]
      exact .raises _ .sequence (by decide)
  · exact e.stepsTo_emitHeader _ (.inr rfl)

theorem Enc.stepsTo_drain (e : Enc) : e.StepsTo .eDrain (e.after (e.core.drainBody.lift e.withCore)) := by
  match hinput : e.core.input with
  | [] =>
    rw [Common.drainBody, e.core.peek_zero_nil hinput]
    exact .holds _
  | .eos :: rest =>
    rw [Common.drainBody, e.core.peek_zero_cons _ _ hinput]
    exact .drainEnd rest hinput
  | .byte b :: rest =>
    rw [Common.drainBody, e.core.peek_zero_cons _ _ hinput]
    exact .drainByte b rest hinput

/-- Everything a micro-step of an ENC command can do. -/
theorem Enc.stepsTo_body (e : Enc) (i : Instr) (hu : i.unit = .enc) : e.StepsTo i (e.after (e.body i)) := by
  cases i
  case eNop => exact .nop
  case eClear => exact .clear
  case eAccum sym =>
    refine e.stepsTo_inPhase _ _ _ (by simp [raisedBy]) fun hphase => ?_
    by_cases hmax : e.core.count[sym.toNat] = 0xFFFFFFFF
    · rw [countOne_of_eq_max _ _ _ hmax]
      exact .raises _ .countOverflow (by simp [raisedBy])
    · rw [countOne_of_ne_max _ _ _ hmax]
      exact .accum sym (List.mem_singleton.mp hphase)
  case eAccumStream =>
    exact e.stepsTo_inPhase _ _ _ (by decide) fun hphase => e.stepsTo_accumStream (List.mem_singleton.mp hphase)
  case eBuildTree =>
    exact e.stepsTo_inPhase _ _ _ (by decide) fun hphase => .buildTree (List.mem_singleton.mp hphase)
  case eGenCodes =>
    exact e.stepsTo_inPhase _ _ _ (by decide) fun hphase => .genCodes (List.mem_singleton.mp hphase)
  case eEmitHeader => exact e.stepsTo_emitHeader _ (.inl rfl)
  case ePack sym =>
    exact e.stepsTo_inPhase _ _ _ (by simp [raisedBy]) fun hphase => .pack sym (List.mem_pair.mp hphase)
  case ePackStream =>
    exact e.stepsTo_inPhase _ _ _ (by decide) fun hphase => e.stepsTo_packStream (List.mem_pair.mp hphase)
  case eFinish =>
    exact e.stepsTo_inPhase _ _ _ (by decide) fun hphase => e.stepsTo_finish (List.mem_pair.mp hphase)
  case ePrepare => exact e.stepsTo_prepare
  case eDrain => exact e.stepsTo_drain
  all_goals cases hu

/-! ### The walk -/

/-- Taking a bit is `afterBit`: at a leaf it gives a symbol, else the walk goes on inside the tree. -/
theorem Dec.takeBit_eq (d : Dec) :
    d.takeBit = if (childTaken d).toNat ≤ 255 then .symbol (afterBit d) else .inside (afterBit d) := by
  have hchild : (if d.brBuf.getLsbD (d.brCnt.toNat - 1) then (d.core.nodeAt d.walkNode).r else (d.core.nodeAt d.walkNode).l) =
      childTaken d := rfl
  simp only [takeBit, hchild]
  split
  case isTrue hleaf => simp only [afterBit, hleaf, decide_true, if_true]; rfl
  case isFalse hinner => simp only [afterBit, hinner, decide_false, Bool.false_eq_true, if_false]; rfl

/-- A WalkStep with a bit to take takes it (44_bitreader R251). -/
theorem Dec.walkStep_of_hasBit {d d' : Dec} (h : HasBit d d') :
    d.walkStep = if (childTaken d').toNat ≤ 255 then .symbol (afterBit d') else .inside (afterBit d') := by
  rw [← takeBit_eq]
  rcases h with ⟨hcnt, rfl⟩ | ⟨hcnt, b, t, rest, hinput, rfl⟩
  · exact if_neg hcnt
  · rcases d.walkStep_cases with ⟨hne, -⟩ | ⟨-, hi, -⟩ | ⟨_, -, hi, -⟩ | ⟨_, -, hi, -⟩ | ⟨_, -, hi, -⟩ | ⟨_, _, _, -, hi, hstep⟩
    · exact absurd hcnt hne
    all_goals rw [hinput] at hi; cases hi
    rw [hstep]
    cases ht : decide (t = .eos) <;> rfl

/-- A WalkStep with an empty buffer at the end of the payload, at the root (R251, R252). -/
theorem Dec.walkStep_of_end {d : Dec} {rest : List Token} (hcnt : d.brCnt = 0) (hinput : d.core.input = .eos :: rest)
    (hroot : d.walkNode = rootNode) : d.walkStep = .ended (d.withCore d.core.consume).endPayload := by
  rw [walkStep, if_pos hcnt, d.core.peek_zero_cons _ _ hinput]
  exact if_pos hroot

/-- The same inside a code. -/
theorem Dec.walkStep_of_cut {d : Dec} {rest : List Token} (hcnt : d.brCnt = 0) (hinput : d.core.input = .eos :: rest)
    (hroot : d.walkNode ≠ rootNode) : d.walkStep = .cut ((d.withCore d.core.consume).raise .incompleteCode) := by
  rw [walkStep, if_pos hcnt, d.core.peek_zero_cons _ _ hinput]
  exact if_neg hroot

/-- A WalkStep with an empty buffer and no token. -/
theorem Dec.walkStep_of_nil {d : Dec} (hcnt : d.brCnt = 0) (hinput : d.core.input = []) : d.walkStep = .hold := by
  rw [walkStep, if_pos hcnt, d.core.peek_zero_nil hinput]

/-- A WalkStep with an empty buffer and a payload byte whose next token is not there yet. -/
theorem Dec.walkStep_of_lone_byte {d : Dec} {b : Byte} (hcnt : d.brCnt = 0) (hinput : d.core.input = [.byte b]) :
    d.walkStep = .hold := by
  have hnext : d.core.peek 1 = none := by rw [Common.peek_none_iff, hinput]; rfl
  rw [walkStep, if_pos hcnt, d.core.peek_zero_cons _ _ hinput]
  simp only [hnext]

/-- Whatever the reader and the input hold, one of the five cases above is met. -/
theorem Dec.walk_cases (d : Dec) :
    (∃ d', HasBit d d') ∨
    (∃ rest, d.brCnt = 0 ∧ d.core.input = .eos :: rest) ∨
    (d.brCnt = 0 ∧ d.core.input = []) ∨ (∃ b, d.brCnt = 0 ∧ d.core.input = [.byte b]) := by
  rcases d.walkStep_cases with ⟨hne, -⟩ | ⟨h0, hi, -⟩ | ⟨b, h0, hi, -⟩ | ⟨rest, h0, hi, -⟩ | ⟨rest, h0, hi, -⟩ |
    ⟨b, t, rest, h0, hi, -⟩
  · exact .inl ⟨d, .inl ⟨hne, rfl⟩⟩
  · exact .inr (.inr (.inl ⟨h0, hi⟩))
  · exact .inr (.inr (.inr ⟨b, h0, hi⟩))
  · exact .inr (.inl ⟨rest, h0, hi⟩)
  · exact .inr (.inl ⟨rest, h0, hi⟩)
  · exact .inl ⟨_, .inr ⟨h0, b, t, rest, hi, rfl⟩⟩

/-! ### The decoder -/

/-- DEC, by one micro-step of command `i`, may become the unit given last. -/
inductive Dec.StepsTo (d : Dec) : Instr → Dec → Prop
  | holds (i : Instr) : StepsTo d i d
  | raises (i : Instr) (k : Cause) (hk : k ∈ raisedBy i) : StepsTo d i (d.raise k)
  | raisesAtEos (i : Instr) (k : Cause) (rest : List Token) (hi : readsInput i = true) (hk : k ∈ raisedBy i)
      (hinput : d.core.input = .eos :: rest) : StepsTo d i ((d.withCore d.core.consume).raise k)
  | nop : StepsTo d .dNop (d.withCore (d.core.complete d.core.phase))
  | clear : StepsTo d .dClear
      { core := d.core.clearBody.complete .ready, hdrIdx := d.hdrIdx, brBuf := 0, brCnt := 0, brLast := false,
        walkNode := rootNode, consumedBits := 0, eop := false }
  | loadStart (hphase : d.core.phase = .ready) : StepsTo d .dLoadHeader { d with hdrIdx := 0, core := d.core.goOn }
  | runStart (hphase : d.core.phase = .ready) :
      StepsTo d .dRun { d with hdrIdx := 0, core := { d.core with stage := 0 }.goOn }
  | loadByte (i : Instr) (hi : i = .dLoadHeader ∨ i = .dRun) (b : Byte) (rest : List Token)
      (hphase : d.core.phase = .ready) (hinput : d.core.input = .byte b :: rest) (hidx : d.hdrIdx + 1 ≠ 1024)
      (hbegun : d.core.begun = true) :
      StepsTo d i { d with hdrIdx := d.hdrIdx + 1, core := (d.core.consume.loadHeaderByte d.hdrIdx b).goOn }
  | loadLast (b : Byte) (rest : List Token) (hphase : d.core.phase = .ready) (hinput : d.core.input = .byte b :: rest)
      (hidx : d.hdrIdx + 1 = 1024) :
      StepsTo d .dLoadHeader { d with
        hdrIdx := d.hdrIdx + 1, core := (d.core.consume.loadHeaderByte d.hdrIdx b).complete .headerLoaded }
  | runLoadLast (b : Byte) (rest : List Token) (hphase : d.core.phase = .ready) (hinput : d.core.input = .byte b :: rest)
      (hidx : d.hdrIdx + 1 = 1024) :
      StepsTo d .dRun { d with
        hdrIdx := d.hdrIdx + 1, core := ((d.core.consume.loadHeaderByte d.hdrIdx b).handOver .headerLoaded 1).goOn }
  | buildTree (hphase : d.core.phase = .headerLoaded) :
      StepsTo d .dBuildTree (d.withCore (d.core.buildTree.complete .treeBuilt))
  | runBuildTree (hphase : d.core.phase = .headerLoaded) :
      StepsTo d .dRun (d.withCore (d.core.buildTree.handOver .treeBuilt 2).goOn)
  | genCodes (hphase : d.core.phase = .treeBuilt) :
      StepsTo d .dGenCodes (d.withCore (d.core.genCodes.complete .codesReady))
  | runGenCodes (hphase : d.core.phase = .treeBuilt) :
      StepsTo d .dRun (d.withCore (d.core.genCodes.handOver .codesReady 3).goOn)
  | checkTbc (v : Byte) (rest : List Token) (hphase : d.core.phase = .codesReady)
      (hinput : d.core.input = .byte v :: rest) :
      StepsTo d .dCheckTbc
        (d.rewind.withCore ({ d.core.consume with auxTbc := v, auxValid := true }.complete .decoding))
  | runCheckTbc (v : Byte) (rest : List Token) (hphase : d.core.phase = .codesReady)
      (hinput : d.core.input = .byte v :: rest) :
      StepsTo d .dRun
        (d.rewind.withCore ({ d.core.consume with auxTbc := v, auxValid := true }.handOver .decoding 4).goOn)
  | tbcMismatch (i : Instr) (hi : i = .dCheckTbc ∨ i = .dRun) (v : Byte) (rest : List Token)
      (hinput : d.core.input = .byte v :: rest) :
      StepsTo d i ((d.withCore { d.core.consume with auxTbc := v, auxValid := true }).raise .tbcMismatch)
  | bit (i : Instr) (hi : i = .dWalk ∨ i = .dDecodeStream ∨ i = .dRun) (d' : Dec) (hphase : d.core.phase = .decoding)
      (hbit : HasBit d d') : StepsTo d i ((afterBit d').withCore (afterBit d').core.goOn)
  | symbol (d' : Dec) (hphase : d.core.phase = .decoding) (hbit : HasBit d d') :
      StepsTo d .dWalk ((afterBit d').withCore ((afterBit d').core.complete .decoding))
  | endOfPayload (i : Instr) (hi : i = .dWalk ∨ i = .dDecodeStream ∨ i = .dRun) (rest : List Token)
      (hphase : d.core.phase = .decoding) (hinput : d.core.input = .eos :: rest) :
      StepsTo d i { d with core := (d.core.consume.emit .eos).complete .done, eop := true }
  | drainByte (b : Byte) (rest : List Token) (hinput : d.core.input = .byte b :: rest) :
      StepsTo d .dDrain (d.withCore d.core.consume.goOn)
  | drainEnd (rest : List Token) (hinput : d.core.input = .eos :: rest) :
      StepsTo d .dDrain (d.withCore (d.core.consume.complete d.core.phase))

/-- A command with a phase requirement raises SEQUENCE, or its body has run in one of its phases. -/
theorem Dec.stepsTo_inPhase (d : Dec) (i : Instr) (p : Phase) (b : Body Dec) (hi : .sequence ∈ raisedBy i)
    (h : d.core.phase = p → d.StepsTo i (d.after b)) : d.StepsTo i (d.after (d.inPhase [p] b)) := by
  by_cases hphase : d.core.phase = p
  · rw [Dec.inPhase_of_mem _ _ _ (List.mem_singleton.mpr hphase)]
    exact h hphase
  · rw [Dec.inPhase_of_not_mem _ _ _ (mt List.mem_singleton.mp hphase)]
    exact .raises i .sequence hi

/-- The same inside D.RUN, where the body hands over. -/
theorem Dec.stepsTo_handOver_inPhase (d : Dec) (p : Phase) (b : Body Dec) (st : Nat)
    (h : d.core.phase = p → d.StepsTo .dRun (d.after (b.handOverDec st))) :
    d.StepsTo .dRun (d.after ((d.inPhase [p] b).handOverDec st)) := by
  by_cases hphase : d.core.phase = p
  · rw [Dec.inPhase_of_mem _ _ _ (List.mem_singleton.mpr hphase)]
    exact h hphase
  · rw [Dec.inPhase_of_not_mem _ _ _ (mt List.mem_singleton.mp hphase)]
    exact .raises .dRun .sequence (by decide)

/-! ### The header loader -/

/-- The first micro-step of the header loader. -/
theorem Dec.loadHeaderBody_of_not_begun {d : Dec} (hbegun : d.core.begun = false) :
    d.loadHeaderBody = .more { d with hdrIdx := 0 } := by
  simp [loadHeaderBody, hbegun]

theorem Dec.loadHeaderBody_of_nil {d : Dec} (hbegun : d.core.begun = true) (hinput : d.core.input = []) :
    d.loadHeaderBody = .hold := by
  rw [loadHeaderBody, if_pos hbegun, d.core.peek_zero_nil hinput]

theorem Dec.loadHeaderBody_of_eos {d : Dec} {rest : List Token} (hbegun : d.core.begun = true)
    (hinput : d.core.input = .eos :: rest) :
    d.loadHeaderBody = .raised ((d.withCore d.core.consume).raise .truncatedHeader) := by
  rw [loadHeaderBody, if_pos hbegun, d.core.peek_zero_cons _ _ hinput]

theorem Dec.loadHeaderBody_of_byte {d : Dec} {b : Byte} {rest : List Token} (hbegun : d.core.begun = true)
    (hinput : d.core.input = .byte b :: rest) (hidx : d.hdrIdx + 1 ≠ 1024) :
    d.loadHeaderBody =
      .more { d with core := d.core.consume.loadHeaderByte d.hdrIdx b, hdrIdx := d.hdrIdx + 1 } := by
  rw [loadHeaderBody, if_pos hbegun, d.core.peek_zero_cons _ _ hinput]
  exact if_neg hidx

theorem Dec.loadHeaderBody_of_last_byte {d : Dec} {b : Byte} {rest : List Token} (hbegun : d.core.begun = true)
    (hinput : d.core.input = .byte b :: rest) (hidx : d.hdrIdx + 1 = 1024) :
    d.loadHeaderBody =
      .fin { d with core := d.core.consume.loadHeaderByte d.hdrIdx b, hdrIdx := d.hdrIdx + 1 } .headerLoaded := by
  rw [loadHeaderBody, if_pos hbegun, d.core.peek_zero_cons _ _ hinput]
  exact if_pos hidx

theorem Dec.stepsTo_loadHeader (d : Dec) (hphase : d.core.phase = .ready) :
    d.StepsTo .dLoadHeader (d.after d.loadHeaderBody) := by
  cases hbegun : d.core.begun with
  | false =>
    rw [loadHeaderBody_of_not_begun hbegun]
    exact .loadStart hphase
  | true =>
    match hinput : d.core.input with
    | [] =>
      rw [loadHeaderBody_of_nil hbegun hinput]
      exact .holds _
    | .eos :: rest =>
      rw [loadHeaderBody_of_eos hbegun hinput]
      exact .raisesAtEos _ .truncatedHeader rest rfl (by decide) hinput
    | .byte b :: rest =>
      by_cases hidx : d.hdrIdx + 1 = 1024
      · rw [loadHeaderBody_of_last_byte hbegun hinput hidx]
        exact .loadLast b rest hphase hinput hidx
      · rw [loadHeaderBody_of_byte hbegun hinput hidx]
        exact .loadByte _ (.inl rfl) b rest hphase hinput hidx hbegun

theorem Dec.stepsTo_run_loadHeader (d : Dec) (hphase : d.core.phase = .ready) (hstage : d.core.stageNow = 0) :
    d.StepsTo .dRun (d.after ((d.withCore { d.core with stage := 0 }).loadHeaderBody.handOverDec 1)) := by
  cases hbegun : d.core.begun with
  | false =>
    rw [loadHeaderBody_of_not_begun (d := d.withCore { d.core with stage := 0 }) hbegun]
    exact .runStart hphase
  | true =>
    have hself : d.withCore { d.core with stage := 0 } = d := by
      rw [← show d.core.stage = 0 by simpa [Common.stageNow, hbegun] using hstage]
      rfl
    rw [hself]
    match hinput : d.core.input with
    | [] =>
      rw [loadHeaderBody_of_nil hbegun hinput]
      exact .holds _
    | .eos :: rest =>
      rw [loadHeaderBody_of_eos hbegun hinput]
      exact .raisesAtEos _ .truncatedHeader rest rfl (by decide) hinput
    | .byte b :: rest =>
      by_cases hidx : d.hdrIdx + 1 = 1024
      · rw [loadHeaderBody_of_last_byte hbegun hinput hidx]
        exact .runLoadLast b rest hphase hinput hidx
      · rw [loadHeaderBody_of_byte hbegun hinput hidx]
        exact .loadByte _ (.inr rfl) b rest hphase hinput hidx hbegun

/-! ### CHECK_TBC, the walk and DRAIN -/

/-- What CHECK_TBC comes to in CODES_READY: it holds, raises one of its two causes, or ends with the reader rewound. -/
theorem Dec.checkTbcBody_cases (d : Dec) (hphase : d.core.phase = .codesReady) :
    d.checkTbcBody = .hold ∨
    (∃ rest, d.core.input = .eos :: rest ∧ d.checkTbcBody = .raised ((d.withCore d.core.consume).raise .missingTbc)) ∨
    (∃ v rest, d.core.input = .byte v :: rest ∧ d.checkTbcBody = .raised
      ((d.withCore { d.core.consume with auxTbc := v, auxValid := true }).raise .tbcMismatch)) ∨
    (∃ v rest, d.core.input = .byte v :: rest ∧ d.checkTbcBody = .fin
      (d.withCore { d.core.consume with auxTbc := v, auxValid := true }).rewind .decoding) := by
  match hinput : d.core.input with
  | [] => exact .inl (d.checkTbcBody_of_nil hphase hinput)
  | .eos :: rest =>
    rw [d.core.consume_eos _ hinput]
    exact .inr (.inl ⟨rest, rfl, d.checkTbcBody_of_eos rest hphase hinput⟩)
  | .byte v :: rest =>
    rw [d.core.consume_byte _ _ hinput]
    by_cases heq : v.toNat = d.core.calcTbc.toNat
    · exact .inr (.inr (.inr ⟨v, rest, rfl, d.checkTbcBody_of_byte_eq rest v hphase hinput heq⟩))
    · exact .inr (.inr (.inl ⟨v, rest, rfl, d.checkTbcBody_of_byte_ne rest v hphase hinput heq⟩))

theorem Dec.stepsTo_checkTbc (d : Dec) : d.StepsTo .dCheckTbc (d.after d.checkTbcBody) := by
  by_cases hphase : d.core.phase = .codesReady
  case neg =>
    rw [checkTbcBody, inPhase_of_not_mem _ _ _ (mt List.mem_singleton.mp hphase)]
    exact .raises _ .sequence (by decide)
  rcases d.checkTbcBody_cases hphase with h | ⟨rest, hinput, h⟩ | ⟨v, rest, hinput, h⟩ | ⟨v, rest, hinput, h⟩ <;> rw [h]
  · exact .holds _
  · exact .raisesAtEos _ .missingTbc rest rfl (by decide) hinput
  · exact .tbcMismatch _ (.inl rfl) v rest hinput
  · exact .checkTbc v rest hphase hinput

theorem Dec.stepsTo_run_checkTbc (d : Dec) : d.StepsTo .dRun (d.after (d.checkTbcBody.handOverDec 4)) := by
  by_cases hphase : d.core.phase = .codesReady
  case neg =>
    rw [checkTbcBody, inPhase_of_not_mem _ _ _ (mt List.mem_singleton.mp hphase)]
    exact .raises _ .sequence (by decide)
  rcases d.checkTbcBody_cases hphase with h | ⟨rest, hinput, h⟩ | ⟨v, rest, hinput, h⟩ | ⟨v, rest, hinput, h⟩ <;> rw [h]
  · exact .holds _
  · exact .raisesAtEos _ .missingTbc rest rfl (by decide) hinput
  · exact .tbcMismatch _ (.inr rfl) v rest hinput
  · exact .runCheckTbc v rest hphase hinput

theorem Dec.stepsTo_walk (d : Dec) (hphase : d.core.phase = .decoding) : d.StepsTo .dWalk (d.after d.walkBody) := by
  unfold walkBody
  rcases d.walk_cases with ⟨d', hbit⟩ | ⟨rest, hcnt, hinput⟩ | ⟨hcnt, hinput⟩ | ⟨b, hcnt, hinput⟩
  · rw [walkStep_of_hasBit hbit]
    by_cases hleaf : (childTaken d').toNat ≤ 255
    · rw [if_pos hleaf]
      exact .symbol d' hphase hbit
    · rw [if_neg hleaf]
      exact .bit _ (.inl rfl) d' hphase hbit
  · by_cases hroot : d.walkNode = rootNode
    · rw [walkStep_of_end hcnt hinput hroot]
      exact .endOfPayload _ (.inl rfl) rest hphase hinput
    · rw [walkStep_of_cut hcnt hinput hroot]
      exact .raisesAtEos _ .incompleteCode rest rfl (by decide) hinput
  · rw [walkStep_of_nil hcnt hinput]
    exact .holds _
  · rw [walkStep_of_lone_byte hcnt hinput]
    exact .holds _

theorem Dec.stepsTo_decodeStream (d : Dec) (i : Instr) (hi : i = .dDecodeStream ∨ i = .dRun)
    (hphase : d.core.phase = .decoding) : d.StepsTo i (d.after d.decodeStreamBody) := by
  unfold decodeStreamBody
  rcases d.walk_cases with ⟨d', hbit⟩ | ⟨rest, hcnt, hinput⟩ | ⟨hcnt, hinput⟩ | ⟨b, hcnt, hinput⟩
  · rw [walkStep_of_hasBit hbit]
    by_cases hleaf : (childTaken d').toNat ≤ 255
    · rw [if_pos hleaf]
      exact .bit _ (.inr hi) d' hphase hbit
    · rw [if_neg hleaf]
      exact .bit _ (.inr hi) d' hphase hbit
  · by_cases hroot : d.walkNode = rootNode
    · rw [walkStep_of_end hcnt hinput hroot]
      exact .endOfPayload _ (.inr hi) rest hphase hinput
    · rw [walkStep_of_cut hcnt hinput hroot]
      exact .raisesAtEos _ .incompleteCode rest (by rcases hi with rfl | rfl <;> rfl) (by rcases hi with rfl | rfl <;> decide)
        hinput
  · rw [walkStep_of_nil hcnt hinput]
    exact .holds _
  · rw [walkStep_of_lone_byte hcnt hinput]
    exact .holds _

theorem Dec.stepsTo_drain (d : Dec) : d.StepsTo .dDrain (d.after (d.core.drainBody.lift d.withCore)) := by
  match hinput : d.core.input with
  | [] =>
    rw [Common.drainBody, d.core.peek_zero_nil hinput]
    exact .holds _
  | .eos :: rest =>
    rw [Common.drainBody, d.core.peek_zero_cons _ _ hinput]
    exact .drainEnd rest hinput
  | .byte b :: rest =>
    rw [Common.drainBody, d.core.peek_zero_cons _ _ hinput]
    exact .drainByte b rest hinput

theorem Dec.stepsTo_run (d : Dec) : d.StepsTo .dRun (d.after d.runBody) := by
  unfold runBody
  split
  case h_1 hstage => exact d.stepsTo_handOver_inPhase _ _ 1 fun hphase => d.stepsTo_run_loadHeader hphase hstage
  case h_2 => exact d.stepsTo_handOver_inPhase _ _ 2 fun hphase => .runBuildTree hphase
  case h_3 => exact d.stepsTo_handOver_inPhase _ _ 3 fun hphase => .runGenCodes hphase
  case h_4 => exact d.stepsTo_run_checkTbc
  case h_5 =>
    exact d.stepsTo_inPhase _ _ _ (by decide) fun hphase => d.stepsTo_decodeStream _ (.inr rfl) hphase

/-- Everything a micro-step of a DEC command can do. -/
theorem Dec.stepsTo_body (d : Dec) (i : Instr) (hu : i.unit = .dec) : d.StepsTo i (d.after (d.body i)) := by
  cases i
  case dNop => exact .nop
  case dClear => exact .clear
  case dLoadHeader => exact d.stepsTo_inPhase _ _ _ (by decide) d.stepsTo_loadHeader
  case dBuildTree => exact d.stepsTo_inPhase _ _ _ (by decide) .buildTree
  case dGenCodes => exact d.stepsTo_inPhase _ _ _ (by decide) .genCodes
  case dCheckTbc => exact d.stepsTo_checkTbc
  case dWalk => exact d.stepsTo_inPhase _ _ _ (by decide) d.stepsTo_walk
  case dDecodeStream => exact d.stepsTo_inPhase _ _ _ (by decide) (d.stepsTo_decodeStream _ (.inl rfl))
  case dDrain => exact d.stepsTo_drain
  case dRun => exact d.stepsTo_run
  all_goals cases hu

/-! ### A command's micro-step as a step of its unit -/

/-- A micro-step of an ENC command changes ENC alone, in one of the ways above (10_state R30). -/
theorem exec_stepsTo_enc {i : Instr} {s t : State} (h : exec i s = .next t) (hu : i.unit = .enc) :
    t = { s with enc := t.enc } ∧ s.enc.StepsTo i t.enc := by
  rw [exec_eq_runEnc_body i s hu, runEnc_eq] at h
  cases h
  exact ⟨rfl, s.enc.stepsTo_body i hu⟩

/-- The same for DEC. -/
theorem exec_stepsTo_dec {i : Instr} {s t : State} (h : exec i s = .next t) (hu : i.unit = .dec) :
    t = { s with dec := t.dec } ∧ s.dec.StepsTo i t.dec := by
  rw [exec_eq_runDec_body i s hu, runDec_eq] at h
  cases h
  exact ⟨rfl, s.dec.stepsTo_body i hu⟩

end Sys2Proof.Machine
end

section
/-! SUPPORT. What every micro-step has in common, read off the ways a unit can change: the phase it completes in, the causes it
records, its frame, and its streams. -/

namespace Sys2Proof.Machine

/-! ### What the larger operations do to the common part -/

/-- Finish emits at most one byte and then EOS, and records FIN_TBC (43_bitpacker R235). -/
theorem Enc.finish_core (e : Enc) : ∃ (bs : List Byte) (finTbc : Byte),
    e.finish.core = ({ e.core.emitBytes bs with auxTbc := finTbc, auxValid := true } : Common).emit .eos := by
  by_cases hpend : 0 < e.pkPend.toNat
  · exact ⟨[e.finalByte], _, by simp only [finish, if_pos hpend]; rfl⟩
  · exact ⟨[], _, by simp only [finish, if_neg hpend]; simp [Common.emitBytes]; rfl⟩

/-- Taking a payload bit consumes at most the oldest token, and emits at most one byte (44_bitreader R251). -/
theorem core_afterBit_of_hasBit {d d' : Dec} (h : HasBit d d') : ∃ (c : Common) (bs : List Byte),
    (afterBit d').core = c.emitBytes bs ∧ (c = d.core ∨ c = d.core.consume ∧ d.core.input ≠ []) := by
  have hemits (d : Dec) : ∃ bs, (afterBit d).core = d.core.emitBytes bs := by
    by_cases hleaf : (childTaken d).toNat ≤ 255
    · exact ⟨[(childTaken d).setWidth 8], by simp only [afterBit, hleaf, decide_true, if_true]; rfl⟩
    · exact ⟨[], by simp [afterBit, hleaf, Common.emitBytes]⟩
  obtain ⟨bs, hbs⟩ := hemits d'
  rcases h with ⟨-, rfl⟩ | ⟨-, b, t, rest, hinput, rfl⟩
  · exact ⟨_, bs, hbs, .inl rfl⟩
  · refine ⟨d.core.consume, bs, ?_, .inr ⟨rfl, by simp [hinput]⟩⟩
    rw [hbs, d.core.consume_byte _ _ hinput]
    rfl

/-! ### The frame -/

/-- What a micro-step of ENC leaves unchanged. -/
theorem Enc.StepsTo.frame {e e' : Enc} {i : Instr} (h : e.StepsTo i e') :
    CommonFrame i e.core e'.core ∧ (writesBits i = false → e'.pkAcc = e.pkAcc ∧ e'.pkPend = e.pkPend) ∧
      (writesBitCounter i = false → e'.packedBits = e.packedBits) := by
  cases h with
  | raises _ k hk => simp [CommonFrame, Common.raise]
  | emitHeader _ hi hphase =>
    rcases hi with rfl | rfl <;>
      simp [CommonFrame, writesCount, writesNode, writesCode, writesAux, readsInput, emitsOutput]
  | pack sym hphase =>
    obtain ⟨bs, hbs⟩ := e.append_core (e.core.codeAt sym)
    simp [CommonFrame, hbs, writesBits, writesBitCounter, emitsOutput]
  | packByte b rest hphase hinput =>
    obtain ⟨bs, hbs⟩ := (e.withCore e.core.consume).append_core (e.core.codeAt b)
    simp [CommonFrame, hbs, writesBits, writesBitCounter, readsInput, emitsOutput]
  | finish =>
    obtain ⟨bs, finTbc, hcore⟩ := e.finish_core
    have hbits : e.finish.packedBits = e.packedBits := rfl
    simp [CommonFrame, hcore, hbits, writesBits, writesAux, emitsOutput]
  | _ =>
    simp [CommonFrame, Common.raise, writesCount, writesNode, writesCode, writesAux, writesBits, writesBitCounter, readsInput,
      emitsOutput, isClear]

/-- What a micro-step of DEC leaves unchanged. -/
theorem Dec.StepsTo.frame {d d' : Dec} {i : Instr} (h : d.StepsTo i d') :
    CommonFrame i d.core d'.core ∧
      (writesBits i = false → d'.brBuf = d.brBuf ∧ d'.brCnt = d.brCnt ∧ d'.brLast = d.brLast ∧ d'.walkNode = d.walkNode) ∧
      (writesBitCounter i = false → d'.consumedBits = d.consumedBits ∧ d'.eop = d.eop) := by
  cases h with
  | raises _ k hk => simp [CommonFrame, Common.raise]
  | raisesAtEos _ k rest hi hk hinput => simp [CommonFrame, Common.raise, hi, hinput, Token.bytes]
  | loadByte _ hi b rest hphase hinput hidx hbegun =>
    rcases hi with rfl | rfl <;>
      simp [CommonFrame, Common.loadHeaderByte, writesCount, writesNode, writesCode, writesAux, readsInput, emitsOutput]
  | tbcMismatch _ hi v rest hinput =>
    rcases hi with rfl | rfl <;>
      simp [CommonFrame, Common.raise, writesCount, writesNode, writesCode, writesAux, readsInput, emitsOutput]
  | bit _ hi d1 hphase hbit =>
    obtain ⟨c, bs, hcore, rfl | ⟨rfl, -⟩⟩ := core_afterBit_of_hasBit hbit <;> rcases hi with rfl | rfl | rfl <;>
      simp [CommonFrame, hcore, writesBits, writesBitCounter, readsInput, emitsOutput]
  | symbol d1 hphase hbit =>
    obtain ⟨c, bs, hcore, rfl | ⟨rfl, -⟩⟩ := core_afterBit_of_hasBit hbit <;>
      simp [CommonFrame, hcore, writesBits, writesBitCounter, readsInput, emitsOutput]
  | endOfPayload _ hi rest hphase hinput =>
    rcases hi with rfl | rfl | rfl <;>
      simp [CommonFrame, writesBits, writesBitCounter, readsInput, emitsOutput]
  | _ =>
    simp [CommonFrame, Common.loadHeaderByte, writesCount, writesNode, writesCode, writesAux, writesBits, writesBitCounter,
      readsInput, emitsOutput, isClear]

/-! ### The streams -/

/-- A micro-step of ENC takes at most the oldest input token, and only adds to the end of the output. -/
theorem Enc.StepsTo.streams {e e' : Enc} {i : Instr} (h : e.StepsTo i e') :
    (e'.core.input = e.core.input ∨ ∃ tok, e.core.input = tok :: e'.core.input) ∧
      ∃ new, e'.core.output = e.core.output ++ new := by
  cases h with
  | pack sym hphase =>
    obtain ⟨bs, hbs⟩ := e.append_core (e.core.codeAt sym)
    exact ⟨.inl (by simp [hbs]), bs.map .byte, by simp [hbs]⟩
  | packByte b rest hphase hinput =>
    obtain ⟨bs, hbs⟩ := (e.withCore e.core.consume).append_core (e.core.codeAt b)
    exact ⟨.inr ⟨.byte b, by simp [hbs, hinput]⟩, bs.map .byte, by simp [hbs]⟩
  | finish hphase =>
    obtain ⟨bs, finTbc, hcore⟩ := e.finish_core
    exact ⟨.inl (by simp [hcore]), bs.map .byte ++ [.eos], by simp [hcore]⟩
  | emitHeader _ hi hphase => exact ⟨.inl rfl, _, rfl⟩
  | accumByte b rest hphase hinput => exact ⟨.inr ⟨.byte b, by simp [hinput]⟩, [], by simp⟩
  | accumOverflow b rest hinput =>
    exact ⟨.inr ⟨.byte b, by simp [Common.raise, hinput]⟩, [], by simp [Common.raise]⟩
  | drainByte b rest hinput => exact ⟨.inr ⟨.byte b, by simp [hinput]⟩, [], by simp⟩
  | accumEnd rest hphase hinput | packEnd rest hphase hinput | drainEnd rest hinput =>
    exact ⟨.inr ⟨.eos, by simp [hinput]⟩, [], by simp⟩
  | _ => exact ⟨.inl rfl, [], (List.append_nil _).symm⟩

/-- The same for DEC. -/
theorem Dec.StepsTo.streams {d d' : Dec} {i : Instr} (h : d.StepsTo i d') :
    (d'.core.input = d.core.input ∨ ∃ tok, d.core.input = tok :: d'.core.input) ∧
      ∃ new, d'.core.output = d.core.output ++ new := by
  have afterBit {d1 : Dec} (hbit : HasBit d d1) :
      ((afterBit d1).core.input = d.core.input ∨ ∃ tok, d.core.input = tok :: (afterBit d1).core.input) ∧
        ∃ new, (afterBit d1).core.output = d.core.output ++ new := by
    obtain ⟨c, bs, hcore, rfl | ⟨rfl, hne⟩⟩ := core_afterBit_of_hasBit hbit
    · exact ⟨.inl (by simp [hcore]), bs.map .byte, by simp [hcore]⟩
    · exact ⟨.inr ⟨d.core.input.head hne, by simp [hcore]⟩, bs.map .byte, by simp [hcore]⟩
  cases h with
  | bit _ hi d1 hphase hbit => exact afterBit hbit
  | symbol d1 hphase hbit => exact afterBit hbit
  | raisesAtEos _ k rest hi hk hinput =>
    exact ⟨.inr ⟨.eos, by simp [Common.raise, hinput]⟩, [], by simp [Common.raise]⟩
  | tbcMismatch _ hi v rest hinput =>
    exact ⟨.inr ⟨.byte v, by simp [Common.raise, hinput]⟩, [], by simp [Common.raise]⟩
  | loadByte _ hi b rest hphase hinput hidx hbegun =>
    exact ⟨.inr ⟨.byte b, by simp [Common.loadHeaderByte, hinput]⟩, [], by simp [Common.loadHeaderByte]⟩
  | loadLast b rest hphase hinput hidx | runLoadLast b rest hphase hinput hidx =>
    exact ⟨.inr ⟨.byte b, by simp [Common.loadHeaderByte, hinput]⟩, [], by simp [Common.loadHeaderByte]⟩
  | checkTbc v rest hphase hinput | runCheckTbc v rest hphase hinput =>
    exact ⟨.inr ⟨.byte v, by simp [hinput]⟩, [], by simp⟩
  | endOfPayload _ hi rest hphase hinput => exact ⟨.inr ⟨.eos, by simp [hinput]⟩, [.eos], by simp⟩
  | drainByte b rest hinput => exact ⟨.inr ⟨.byte b, by simp [hinput]⟩, [], by simp⟩
  | drainEnd rest hinput => exact ⟨.inr ⟨.eos, by simp [hinput]⟩, [], by simp⟩
  | _ => exact ⟨.inl rfl, [], (List.append_nil _).symm⟩

/-! ### STATUS and ERR_CAUSE -/

/-- A phase a run is in: neither IDLE nor ERROR. -/
def Phase.Live (p : Phase) : Prop := p ≠ .idle ∧ p ≠ .error

/-- What a micro-step of command `i` may do to PHASE, BUSY, DONE and ERR_CAUSE, and to the model's `countInit`: go on, hand over
inside E.PREPARE or D.RUN, complete, complete as CLEAR does, or raise. -/
inductive StatusStep (i : Instr) (c c' : Common) : Prop
  | goesOn (hphase : c'.phase = c.phase) (hbusy : c'.busy = c.busy) (hdone : c'.done = c.done)
      (herr : c'.errCause = c.errCause) (hinit : c'.countInit = c.countInit)
  | handsOver (hlive : c.phase.Live) (hlive' : c'.phase.Live) (hlegal : c'.phase.legal i.unit = true)
      (hbusy : c'.busy = c.busy) (hdone : c'.done = c.done) (herr : c'.errCause = c.errCause)
      (hinit : c'.countInit = c.countInit)
  | completes (hphase : c'.phase ∈ leavesPhase c.phase i) (hlive : c'.phase = c.phase ∨ c.phase.Live ∧ c'.phase.Live)
      (hbusy : c'.busy = false) (hdone : c'.done = true) (herr : c'.errCause = c.errCause)
      (hinit : c'.countInit = c.countInit)
  | clears (hi : isClear i = true) (hphase : c'.phase ∈ leavesPhase c.phase i) (hbusy : c'.busy = false)
      (hdone : c'.done = true) (herr : c'.errCause = ⟨0, 0, 0⟩) (hinit : c'.countInit = true)
  | raises (k : Cause) (hk : k ∈ raisedBy i) (hphase : c'.phase = .error) (hbusy : c'.busy = false)
      (hdone : c'.done = c.done)
      (herr : c'.errCause = if c.phase = .error then c.errCause else ⟨k.code, c.cur.extractLsb' 0 8, k.kind⟩)
      (hinit : c'.countInit = c.countInit)

/-- A raise, with no more than streams, counters and TBC fields changed before it. -/
theorem statusStep_raise {i : Instr} {k : Cause} (hk : k ∈ raisedBy i) (c c' : Common) (hphase : c'.phase = c.phase)
    (hdone : c'.done = c.done) (herr : c'.errCause = c.errCause) (hcur : c'.cur = c.cur)
    (hinit : c'.countInit = c.countInit) : StatusStep i c (c'.raise k) := by
  refine .raises k hk rfl rfl hdone ?_ hinit
  rw [Common.raise, Common.errorEntry_eq, ← hphase, ← herr, ← hcur]
  rfl

/-- A completion of a command that ran in a phase of its own. -/
theorem statusStep_complete {i : Instr} {p : Phase} (c c' : Common) (hp : p ∈ leavesPhase c.phase i)
    (hlive : c.phase.Live ∧ p.Live) (herr : c'.errCause = c.errCause) (hinit : c'.countInit = c.countInit) :
    StatusStep i c (c'.complete p) :=
  .completes hp (.inr hlive) rfl rfl herr hinit

/-- What a micro-step of ENC does to STATUS and ERR_CAUSE. -/
theorem Enc.StepsTo.status {e e' : Enc} {i : Instr} (h : e.StepsTo i e') : StatusStep i e.core e'.core := by
  cases h with
  | holds => exact .goesOn rfl rfl rfl rfl rfl
  | raises _ k hk => exact statusStep_raise hk _ _ rfl rfl rfl rfl rfl
  | nop => exact .completes (List.mem_singleton_self _) (.inl rfl) rfl rfl rfl rfl
  | clear => exact .clears rfl (List.mem_singleton_self _) rfl rfl rfl rfl
  | accum sym hphase =>
    exact statusStep_complete _ _ (List.mem_singleton_self _) (by simp [Phase.Live, hphase]) rfl rfl
  | accumByte b rest hphase hinput => exact .goesOn (by simp) (by simp) (by simp) (by simp) (by simp)
  | accumOverflow b rest hinput =>
    exact statusStep_raise (by decide) _ _ (by simp) (by simp) (by simp) (by simp) (by simp)
  | accumEnd rest hphase hinput =>
    exact statusStep_complete _ _ (List.mem_singleton_self _) (by simp [Phase.Live, hphase]) (by simp) (by simp)
  | buildTree hphase | genCodes hphase =>
    exact statusStep_complete _ _ (List.mem_singleton_self _) (by simp [Phase.Live, hphase]) rfl rfl
  | emitHeader _ hi hphase =>
    refine statusStep_complete _ _ ?_ (by simp [Phase.Live, hphase]) rfl rfl
    rcases hi with rfl | rfl <;> exact List.mem_singleton_self _
  | pack sym hphase =>
    obtain ⟨bs, hbs⟩ := e.append_core (e.core.codeAt sym)
    refine statusStep_complete _ _ (List.mem_singleton_self _) ?_ (by simp [hbs]) (by simp [hbs])
    rcases hphase with hphase | hphase <;> simp [Phase.Live, hphase]
  | packByte b rest hphase hinput =>
    obtain ⟨bs, hbs⟩ := (e.withCore e.core.consume).append_core (e.core.codeAt b)
    exact .goesOn (by simp [hbs]) (by simp [hbs]) (by simp [hbs]) (by simp [hbs]) (by simp [hbs])
  | packEnd rest hphase hinput =>
    refine statusStep_complete _ _ (List.mem_singleton_self _) ?_ (by simp) (by simp)
    rcases hphase with hphase | hphase <;> simp [Phase.Live, hphase]
  | finish hphase =>
    obtain ⟨bs, finTbc, hcore⟩ := e.finish_core
    refine statusStep_complete _ _ (List.mem_singleton_self _) ?_ (by simp [hcore]) (by simp [hcore])
    rcases hphase with hphase | hphase <;> simp [Phase.Live, hphase]
  | prepareTree hphase | prepareCodes hphase =>
    exact .handsOver (by simp [Phase.Live, hphase]) (by simp [Phase.Live]) rfl rfl rfl rfl rfl
  | drainByte b rest hinput => exact .goesOn (by simp) (by simp) (by simp) (by simp) (by simp)
  | drainEnd rest hinput =>
    exact .completes (List.mem_singleton_self _) (.inl rfl) rfl rfl (by simp) (by simp)

/-- What a micro-step of DEC does to STATUS and ERR_CAUSE. -/
theorem Dec.StepsTo.status {d d' : Dec} {i : Instr} (h : d.StepsTo i d') : StatusStep i d.core d'.core := by
  cases h with
  | holds => exact .goesOn rfl rfl rfl rfl rfl
  | raises _ k hk => exact statusStep_raise hk _ _ rfl rfl rfl rfl rfl
  | raisesAtEos _ k rest hi hk hinput =>
    exact statusStep_raise hk _ _ (by simp) (by simp) (by simp) (by simp) (by simp)
  | nop => exact .completes (List.mem_singleton_self _) (.inl rfl) rfl rfl rfl rfl
  | clear => exact .clears rfl (List.mem_singleton_self _) rfl rfl rfl rfl
  | loadStart hphase | runStart hphase => exact .goesOn rfl rfl rfl rfl rfl
  | loadByte _ hi b rest hphase hinput hidx hbegun =>
    exact .goesOn (by simp [Common.loadHeaderByte]) (by simp [Common.loadHeaderByte]) (by simp [Common.loadHeaderByte])
      (by simp [Common.loadHeaderByte]) (by simp [Common.loadHeaderByte])
  | loadLast b rest hphase hinput hidx =>
    exact statusStep_complete _ _ (List.mem_singleton_self _) (by simp [Phase.Live, hphase])
      (by simp [Common.loadHeaderByte]) (by simp [Common.loadHeaderByte])
  | runLoadLast b rest hphase hinput hidx =>
    exact .handsOver (by simp [Phase.Live, hphase]) (by simp [Phase.Live]) rfl (by simp [Common.loadHeaderByte])
      (by simp [Common.loadHeaderByte]) (by simp [Common.loadHeaderByte]) (by simp [Common.loadHeaderByte])
  | buildTree hphase | genCodes hphase =>
    exact statusStep_complete _ _ (List.mem_singleton_self _) (by simp [Phase.Live, hphase]) rfl rfl
  | runBuildTree hphase | runGenCodes hphase =>
    exact .handsOver (by simp [Phase.Live, hphase]) (by simp [Phase.Live]) rfl rfl rfl rfl rfl
  | checkTbc v rest hphase hinput =>
    exact statusStep_complete _ _ (List.mem_singleton_self _) (by simp [Phase.Live, hphase]) (by simp) (by simp)
  | runCheckTbc v rest hphase hinput =>
    exact .handsOver (by simp [Phase.Live, hphase]) (by simp [Phase.Live]) rfl (by simp) (by simp) (by simp) (by simp)
  | tbcMismatch _ hi v rest hinput =>
    refine statusStep_raise ?_ _ _ (by simp) (by simp) (by simp) (by simp) (by simp)
    rcases hi with rfl | rfl <;> decide
  | bit _ hi d1 hphase hbit =>
    obtain ⟨c, bs, hcore, rfl | ⟨rfl, -⟩⟩ := core_afterBit_of_hasBit hbit <;>
      exact .goesOn (by simp [hcore]) (by simp [hcore]) (by simp [hcore]) (by simp [hcore]) (by simp [hcore])
  | symbol d1 hphase hbit =>
    obtain ⟨c, bs, hcore, rfl | ⟨rfl, -⟩⟩ := core_afterBit_of_hasBit hbit <;>
      exact statusStep_complete _ _ (by simp [leavesPhase]) (by simp [Phase.Live, hphase]) (by simp [hcore])
        (by simp [hcore])
  | endOfPayload _ hi rest hphase hinput =>
    refine statusStep_complete _ _ ?_ (by simp [Phase.Live, hphase]) (by simp) (by simp)
    rcases hi with rfl | rfl | rfl <;> simp [leavesPhase]
  | drainByte b rest hinput => exact .goesOn (by simp) (by simp) (by simp) (by simp) (by simp)
  | drainEnd rest hinput =>
    exact .completes (List.mem_singleton_self _) (.inl rfl) rfl rfl (by simp) (by simp)

/-- What a micro-step of either unit's command does to STATUS and ERR_CAUSE. -/
theorem exec_status {i : Instr} {s t : State} (h : exec i s = .next t) :
    StatusStep i (s.core i.unit) (t.core i.unit) := by
  cases hu : i.unit with
  | enc => exact (exec_stepsTo_enc h hu).2.status
  | dec => exact (exec_stepsTo_dec h hu).2.status

/-- CLEAR does not leave PHASE in ERROR. -/
theorem leavesPhase_of_isClear {i : Instr} (hi : isClear i = true) (p : Phase) : Phase.error ∉ leavesPhase p i := by
  cases i <;> cases hi <;> simp [leavesPhase]

end Sys2Proof.Machine

open Sys2Proof Sys2Proof.Machine

/-- Settles O9: only a completion and a raise clear BUSY. -/
theorem completionLeavesTablePhase : Obligations.CompletionLeavesTablePhase := by
  intro i s t hbusy hexec hidle
  cases exec_status hexec with
  | goesOn _ hb | handsOver _ _ _ hb => rw [hb, hbusy] at hidle; cases hidle
  | completes hphase _ _ hdone | clears _ hphase _ hdone => exact .inl ⟨hphase, hdone⟩
  | raises k _ hphase _ hdone => exact .inr ⟨hphase, hdone⟩

/-- Settles O11: only a raise takes a unit into ERROR. -/
theorem commandsRaiseOnlyTheirCauses : Obligations.CommandsRaiseOnlyTheirCauses := by
  intro i s t hexec hs ht
  cases exec_status hexec with
  | goesOn hphase => exact absurd (hphase.symm.trans ht) hs
  | handsOver _ hlive' => exact absurd ht hlive'.2
  | completes _ hlive => exact absurd ht (hlive.elim (fun h => h ▸ hs) fun h => h.2.2)
  | clears hi hphase => exact absurd (ht ▸ hphase) (leavesPhase_of_isClear hi _)
  | raises k hk _ _ _ herr => exact ⟨k, hk, by rw [herr, if_neg hs]⟩

/-- Settles O33: each way a unit can change is within the command's frame. -/
theorem commandsFrame : Obligations.CommandsFrame :=
  fun _ _ _ hexec => ⟨fun hu => (exec_stepsTo_enc hexec hu).imp_right Enc.StepsTo.frame,
    fun hu => (exec_stepsTo_dec hexec hu).imp_right Dec.StepsTo.frame⟩

/-- Settles O34: so it is for the streams. -/
theorem microStepTakesAtMostOneToken : Obligations.MicroStepTakesAtMostOneToken := by
  intro i s t hexec
  cases hu : i.unit with
  | enc => exact (exec_stepsTo_enc hexec hu).2.streams
  | dec => exact (exec_stepsTo_dec hexec hu).2.streams
end

section
/-! SUPPORT. Everything one step of the machine can do to a unit: its own move, an access of the host, or reset; and the invariant of
STATUS and ERR_CAUSE, kept by each of them. -/

namespace Sys2Proof.Machine

/-! ### What the host does to a unit -/

/-- The common part `c`, by one move of the host other than reset, may become the one given last. -/
inductive Common.HostStepsTo (c : Common) : Common → Prop
  | same : HostStepsTo c c
  | writes (r : Reg) (v : Word) : HostStepsTo c (c.regWrite r v)
  | receives (t : Token) : HostStepsTo c (c.receive t)
  | taken (rest : List Token) : HostStepsTo c { c with output := rest }

/-- Each unit of `t` is that of `s` with what the host did to its common part. -/
def HostMoved (s t : State) : Prop :=
  (∃ c, s.enc.core.HostStepsTo c ∧ t.enc = s.enc.withCore c) ∧ ∃ c, s.dec.core.HostStepsTo c ∧ t.dec = s.dec.withCore c

theorem hostMoved_of_units {s t : State} (he : t.enc = s.enc) (hd : t.dec = s.dec) : HostMoved s t :=
  ⟨⟨_, .same, he⟩, _, .same, hd⟩

theorem hostMoved_setCore (s : State) (u : UnitId) (c : Common) (h : (s.core u).HostStepsTo c) :
    HostMoved s (s.setCore u c) := by
  cases u
  · exact ⟨⟨c, h, rfl⟩, _, .same, rfl⟩
  · exact ⟨⟨_, .same, rfl⟩, c, h, rfl⟩

theorem hostMoved_hostRead (u : UnitId) (off : BitVec 12) (width : Nat) (s : State) :
    HostMoved s (hostRead u off width s) :=
  hostMoved_of_units (hostRead_units u off width s).1 (hostRead_units u off width s).2

theorem hostMoved_hostWrite (u : UnitId) (off : BitVec 12) (width : Nat) (v : Word) (s : State) :
    HostMoved s (hostWrite u off width v s) := by
  unfold hostWrite
  split
  · exact hostMoved_setCore s u _ (.writes _ v)
  · exact hostMoved_of_units rfl rfl

theorem hostMoved_hostTake (u : UnitId) (s : State) : HostMoved s (hostTake u s) := by
  unfold hostTake
  split
  · exact hostMoved_of_units rfl rfl
  · exact hostMoved_setCore s u _ (.taken _)

theorem hostMoved_hostForward (s : State) : HostMoved s (hostForward s) := by
  unfold hostForward
  split
  · exact hostMoved_of_units rfl rfl
  · exact ⟨⟨_, .taken _, rfl⟩, _, .receives _, rfl⟩

/-- Everything a move of the host can do to the units (70_reset R370). -/
theorem hostMove_cases (a : HostMove) (s t : State) (h : hostMove a s = .next t) :
    HostMoved s t ∨ (t.enc = Enc.reset ∧ t.dec = Dec.reset) := by
  cases a with
  | read u off width => cases h; exact .inl (hostMoved_hostRead u off width s)
  | write u off width v => cases h; exact .inl (hostMoved_hostWrite u off width v s)
  | busRead addr width =>
    obtain ⟨u, off, rfl⟩ := busMove_next addr _ t h
    exact .inl (hostMoved_hostRead u off width s)
  | busWrite addr width v =>
    obtain ⟨u, off, rfl⟩ := busMove_next addr _ t h
    exact .inl (hostMoved_hostWrite u off width v s)
  | send u data eos => cases h; exact .inl (hostMoved_setCore s u _ (.receives _))
  | take u => cases h; exact .inl (hostMoved_hostTake u s)
  | forward => cases h; exact .inl (hostMoved_hostForward s)
  | reset => cases h; exact .inr ⟨rfl, rfl⟩

/-! ### What a step does to a unit -/

/-- ENC, by one step of the machine, may become the unit given last. -/
inductive Enc.Becomes (e : Enc) : Enc → Prop
  | illegal : Becomes e (e.raise .illegalCmd)
  | runs (i : Instr) (e' : Enc) (hbusy : e.core.busy = true) (hu : i.unit = .enc) (h : e.StepsTo i e') : Becomes e e'
  | host (c : Common) (h : e.core.HostStepsTo c) : Becomes e (e.withCore c)
  | reset : Becomes e Enc.reset

/-- DEC, by one step of the machine, may become the unit given last. -/
inductive Dec.Becomes (d : Dec) : Dec → Prop
  | illegal : Becomes d (d.raise .illegalCmd)
  | runs (i : Instr) (d' : Dec) (hbusy : d.core.busy = true) (hdecode : decode .dec d.core.cur = .ok i)
      (hu : i.unit = .dec) (h : d.StepsTo i d') : Becomes d d'
  | host (c : Common) (h : d.core.HostStepsTo c) : Becomes d (d.withCore c)
  | reset : Becomes d Dec.reset

theorem Enc.becomes_move (e : Enc) : e.Becomes e.move := by
  rcases e.move_cases with ⟨-, h⟩ | ⟨why, -, -, h⟩ | ⟨i, hb, -, hu, h⟩ <;> rw [h]
  · exact .host _ .same
  · exact .illegal
  · exact .runs i _ hb hu (e.stepsTo_body i hu)

theorem Dec.becomes_move (d : Dec) : d.Becomes d.move := by
  rcases d.move_cases with ⟨-, h⟩ | ⟨why, -, -, h⟩ | ⟨i, hb, hd, hu, h⟩ <;> rw [h]
  · exact .host _ .same
  · exact .illegal
  · exact .runs i _ hb hd hu (d.stepsTo_body i hu)

/-- Everything one step can do to the two units. -/
theorem step_becomes {s t : State} (h : step s = .next t) : s.enc.Becomes t.enc ∧ s.dec.Becomes t.dec := by
  rcases step_cases s t h with ⟨he, hd⟩ | ⟨he, hd⟩ | ⟨a, rest, -, hm⟩
  · rw [he, hd]
    exact ⟨s.enc.becomes_move, .host _ .same⟩
  · rw [he, hd]
    exact ⟨.host _ .same, s.dec.becomes_move⟩
  · rcases hostMove_cases a _ t hm with ⟨⟨c, hc, he⟩, c', hc', hd⟩ | ⟨he, hd⟩ <;> rw [he, hd]
    · exact ⟨.host c hc, .host c' hc'⟩
    · exact ⟨.reset, .reset⟩

/-! ### ERR_CAUSE while ERR stays 1 -/

/-- Error entry in ERROR keeps the first cause (60_exceptions R320). -/
theorem Common.errorEntry_errCause_of_error (c : Common) (k : Cause) (opc : Byte) (h : c.phase = .error) :
    (c.errorEntry k opc).errCause = c.errCause := by
  rw [c.errorEntry_again k opc h]

/-- No host access changes the cause recorded in ERROR. -/
theorem Common.HostStepsTo.errCause_of_error {c c' : Common} (h : c.HostStepsTo c') (hc : c.phase = .error) :
    c'.errCause = c.errCause := by
  cases h with
  | writes r v =>
    cases r
    case cmd =>
      rcases c.cmdWrite_cases v with ⟨-, h⟩ | ⟨-, -, -, h⟩ | ⟨-, -, h⟩ <;> rw [regWrite, h]
      · exact c.errorEntry_errCause_of_error _ _ hc
      · rfl
    all_goals rfl
  | _ => rfl

/-- No command but one that leaves ERROR changes the cause recorded there. -/
theorem StatusStep.errCause_of_error {i : Instr} {c c' : Common} (h : StatusStep i c c') (hc : c.phase = .error)
    (hc' : c'.phase = .error) : c'.errCause = c.errCause := by
  cases h with
  | goesOn _ _ _ herr => exact herr
  | handsOver hlive => exact absurd hc hlive.2
  | completes _ _ _ _ herr => exact herr
  | clears hi hphase => exact absurd (hc' ▸ hphase) (leavesPhase_of_isClear hi _)
  | raises k _ _ _ _ herr => rw [herr, if_pos hc]

theorem Enc.Becomes.errCause_of_error {e e' : Enc} (h : e.Becomes e') (he : e.core.phase = .error)
    (he' : e'.core.phase = .error) : e'.core.errCause = e.core.errCause := by
  cases h with
  | illegal => exact e.core.errorEntry_errCause_of_error _ _ he
  | runs i _ _ _ h => exact h.status.errCause_of_error he he'
  | host c h => exact h.errCause_of_error he
  | reset => cases he'

theorem Dec.Becomes.errCause_of_error {d d' : Dec} (h : d.Becomes d') (hd : d.core.phase = .error)
    (hd' : d'.core.phase = .error) : d'.core.errCause = d.core.errCause := by
  cases h with
  | illegal => exact d.core.errorEntry_errCause_of_error _ _ hd
  | runs i _ _ _ _ h => exact h.status.errCause_of_error hd hd'
  | host c h => exact h.errCause_of_error hd
  | reset => cases hd'

end Sys2Proof.Machine

namespace Sys2Proof

open Machine

/-! ### The invariant of STATUS and ERR_CAUSE -/

/-- STATUS and ERR_CAUSE after reset (10_state R66). -/
theorem statusOk_reset (u : UnitId) : StatusOk u Common.reset := by
  refine ⟨by cases u <;> rfl, nofun, ?_, .inl rfl, fun h => absurd rfl h⟩
  rw [Common.err_iff]
  exact iff_of_false nofun (not_not.mpr rfl)

/-- The codes of the table are not 0 (60_exceptions R311). -/
theorem cause_code_ne_zero (k : Cause) : k.code ≠ 0 := by
  cases k <;> decide

/-- The invariant speaks of five fields alone. -/
theorem StatusOk.of_eq {u : UnitId} {c c' : Common} (h : StatusOk u c) (hphase : c'.phase = c.phase)
    (hbusy : c'.busy = c.busy) (hdone : c'.done = c.done) (herr : c'.errCause = c.errCause)
    (hinit : c'.countInit = c.countInit) : StatusOk u c' := by
  unfold StatusOk Common.err
  rw [hphase, hbusy, hdone, herr, hinit]
  exact h

/-- Error entry keeps the invariant: the cause recorded is the one that was there, or one of the table. -/
theorem StatusOk.of_error {u : UnitId} {c c' : Common} {k : Cause} {opc : Byte} (h : StatusOk u c)
    (hphase : c'.phase = .error) (hbusy : c'.busy = false)
    (herr : c'.errCause = if c.phase = .error then c.errCause else ⟨k.code, opc, k.kind⟩) : StatusOk u c' := by
  obtain ⟨-, -, hcode, hcause, -⟩ := h
  rw [Common.err_iff] at hcode
  have hlegal : c'.phase.legal u = true := by rw [hphase]; rfl
  refine ⟨hlegal, fun hb => (Bool.noConfusion (hbusy.symm.trans hb)), ?_, ?_, fun _ hne => absurd hphase hne⟩
  · rw [Common.err_iff, herr]
    split
    case isTrue hc => exact iff_of_true hphase (hcode.mp hc)
    case isFalse hc => exact iff_of_true hphase (cause_code_ne_zero k)
  · rw [herr]
    split
    · exact hcause
    · exact .inr ⟨k, rfl, rfl⟩

theorem StatusOk.errorEntry {u : UnitId} {c : Common} (h : StatusOk u c) (k : Cause) (opc : Byte) :
    StatusOk u (c.errorEntry k opc) :=
  h.of_error (k := k) (opc := opc) rfl rfl (by rw [Common.errorEntry_eq])

/-- A host access keeps the invariant. -/
theorem StatusOk.host {u : UnitId} {c c' : Common} (h : StatusOk u c) (hc : c.HostStepsTo c') : StatusOk u c' := by
  obtain ⟨hlegal, hbusy, hcode, hcause, hinit⟩ := id h
  cases hc with
  | writes r v =>
    cases r
    case cmd =>
      rcases c.cmdWrite_cases v with ⟨-, hw⟩ | ⟨-, -, -, hw⟩ | ⟨-, -, hw⟩ <;> rw [Common.regWrite, hw]
      · exact h.errorEntry _ _
      · exact h
      · exact ⟨hlegal, fun _ => rfl, hcode, hcause, hinit⟩
    case status => exact ⟨hlegal, fun hb => by simp [Common.regWrite, hbusy hb], hcode, hcause, hinit⟩
    all_goals exact h.of_eq rfl rfl rfl rfl rfl
  | _ => exact h.of_eq rfl rfl rfl rfl rfl

/-- The phases a command may leave PHASE in are phases of its unit, if it started in one. -/
theorem legal_of_mem_leavesPhase {i : Instr} {p q : Phase} (hp : p.legal i.unit = true) (hq : q ∈ leavesPhase p i) :
    q.legal i.unit = true := by
  cases i <;> simp only [leavesPhase, List.mem_cons, List.not_mem_nil, or_false] at hq
  case dWalk => rcases hq with rfl | rfl <;> rfl
  case eNop | eDrain | dNop | dDrain => exact hq ▸ hp
  all_goals exact hq ▸ rfl

/-- A micro-step keeps the invariant. -/
theorem StatusOk.micro {i : Instr} {c c' : Common} (h : StatusOk i.unit c) (hc : StatusStep i c c') :
    StatusOk i.unit c' := by
  obtain ⟨hlegal, hbusy, hcode, hcause, hinit⟩ := id h
  rw [Common.err_iff] at hcode
  have live (hlive : c.phase.Live) (hlive' : c'.phase.Live) (herr : c'.errCause = c.errCause) :
      c'.err = true ↔ c'.errCause.code ≠ 0 := by
    rw [Common.err_iff, herr, ← hcode]
    exact iff_of_false hlive'.2 hlive.2
  cases hc with
  | goesOn hphase hb hd herr hi => exact h.of_eq hphase hb hd herr hi
  | handsOver hlive hlive' hlegal' hb hd herr hi =>
    exact ⟨hlegal', by rwa [hb, hd], live hlive hlive' herr, herr ▸ hcause, fun _ _ => hi.trans (hinit hlive.1 hlive.2)⟩
  | completes hphase hlive hb hd herr hi =>
    refine ⟨legal_of_mem_leavesPhase hlegal hphase, fun hb' => Bool.noConfusion (hb.symm.trans hb'), ?_, herr ▸ hcause, ?_⟩
    · rcases hlive with hsame | ⟨hlive, hlive'⟩
      · rw [Common.err_iff, hsame, herr, hcode]
      · exact live hlive hlive' herr
    · rcases hlive with hsame | ⟨hlive, hlive'⟩
      · rw [hsame, hi]
        exact hinit
      · exact fun _ _ => hi.trans (hinit hlive.1 hlive.2)
  | clears hclear hphase hb hd herr hi =>
    refine ⟨legal_of_mem_leavesPhase hlegal hphase, fun hb' => Bool.noConfusion (hb.symm.trans hb'), ?_, .inl herr,
      fun _ _ => hi⟩
    rw [Common.err_iff, herr]
    exact iff_of_false (fun he => leavesPhase_of_isClear hclear _ (he ▸ hphase)) (not_not.mpr rfl)
  | raises k hk hphase hb hd herr hi => exact h.of_error hphase hb herr

theorem StatusOk.enc_step {e e' : Enc} (he : StatusOk .enc e.core) (h : e.Becomes e') : StatusOk .enc e'.core := by
  cases h with
  | illegal => exact he.errorEntry _ _
  | runs i _ _ hu h => exact hu ▸ StatusOk.micro (hu ▸ he) h.status
  | host c h => exact he.host h
  | reset => exact statusOk_reset .enc

theorem StatusOk.dec_step {d d' : Dec} (hd : StatusOk .dec d.core) (h : d.Becomes d') : StatusOk .dec d'.core := by
  cases h with
  | illegal => exact hd.errorEntry _ _
  | runs i _ _ _ hu h => exact hu ▸ StatusOk.micro (hu ▸ hd) h.status
  | host c h => exact hd.host h
  | reset => exact statusOk_reset .dec

end Sys2Proof

open Sys2Proof Sys2Proof.Machine

/-- Settles O12: each thing a step can do to a unit in ERROR keeps ERR_CAUSE or leaves ERROR. -/
theorem firstErrorIsKept : Obligations.FirstErrorIsKept := by
  intro s t u hstep hs ht
  obtain ⟨henc, hdec⟩ := step_becomes hstep
  cases u with
  | enc => exact henc.errCause_of_error hs ht
  | dec => exact hdec.errCause_of_error hs ht

/-- Settles O50: each thing a step can do to a unit keeps the invariant. -/
theorem stepKeepsStatusInvariant : Obligations.StepKeepsStatusInvariant := by
  rintro s t ⟨henc, hdec⟩ hstep
  obtain ⟨hbe, hbd⟩ := step_becomes hstep
  exact ⟨henc.enc_step hbe, hdec.dec_step hbd⟩
end

section
/-! SUPPORT. Where the children of an internal node stand, and what the root weighs (42_tree_codes R200 to R202). -/

namespace Sys2Proof.Machine

variable (count : Vector (BitVec 32) 256)

/-- The node of an index below 511. -/
theorem nodeOf_eq (node : Vector Node 511) (n : NodeIdx) (h : n.toNat < 511) : nodeOf node n = node[n.toNat] := by
  simp [nodeOf, h]

/-- Merge `i` makes node `256 + i` of two earlier nodes (R202). -/
theorem treeBuild_children_lt {m : Nat} (hm : 256 ≤ m) (h : m < 511) :
    (treeBuild count)[m].l.toNat < m ∧ (treeBuild count)[m].r.toNat < m := by
  obtain ⟨i, rfl⟩ := Nat.exists_eq_add_of_le hm
  have hi : i < 255 := by omega
  obtain ⟨x, y, rest, hactive, -⟩ := activesAfter_succ count hi
  have hx : x ∈ activesAfter count i := by simp [hactive]
  have hy : y ∈ activesAfter count i := by simp [hactive]
  simp only [treeBuild_inner count hi hactive, toNat_ofNat_n count hi.le hx, toNat_ofNat_n count hi.le hy]
  exact ⟨n_lt_of_mem_activesAfter count hi.le x hx, n_lt_of_mem_activesAfter count hi.le y hy⟩

/-- A member of the active set together with the rest weighs the sum of all counts; before the last merge two members are left. -/
theorem treeBuild_root_w : (treeBuild count)[510].w.toNat = (count.toList.map BitVec.toNat).sum := by
  obtain ⟨x, y, rest, hactive, -⟩ := activesAfter_succ count (i := 254) (by decide)
  have hlen := length_activesAfter count (i := 254) (by decide)
  have hsum := sum_w_activesAfter count (i := 254) (by decide)
  obtain rfl : rest = [] := by simpa [hactive] using hlen
  rw [← hsum, hactive]
  exact (treeBuild_inner_w count (i := 254) (by decide) hactive).trans (by simp)

/-- An internal node weighs the exact sum of its children (R200). -/
theorem treeBuild_inner_w_sum {m : Nat} (hm : 256 ≤ m) (h : m < 511) :
    (treeBuild count)[m].w.toNat =
      (nodeOf (treeBuild count) (treeBuild count)[m].l).w.toNat +
        (nodeOf (treeBuild count) (treeBuild count)[m].r).w.toNat := by
  obtain ⟨i, rfl⟩ := Nat.exists_eq_add_of_le hm
  have hi : i < 255 := by omega
  obtain ⟨x, y, rest, hactive, -⟩ := activesAfter_succ count hi
  rw [treeBuild_inner_w count hi hactive, treeBuild_inner count hi hactive,
    nodeOf_w_of_mem_activesAfter count hi.le x (by simp [hactive]),
    nodeOf_w_of_mem_activesAfter count hi.le y (by simp [hactive])]

end Sys2Proof.Machine

open Sys2Proof Sys2Proof.Machine

/-- Settles O36: the children are members of the active set, whose indices are below the new node's. -/
theorem childrenPrecedeParents : Obligations.ChildrenPrecedeParents :=
  fun count _ h hm => treeBuild_children_lt count hm h

/-- Settles O37: the active set carries the weights of its nodes, and all of it weighs the sum of the counts after every merge. -/
theorem weightsAreExactSums : Obligations.WeightsAreExactSums := by
  refine fun count => ⟨fun n h => ?leaf, fun m h hm => treeBuild_inner_w_sum count hm h, treeBuild_root_w count⟩
  case leaf =>
    rw [treeBuild_leaf count n h]
    exact BitVec.toNat_setWidth_of_le (by decide)
end

section
/-! SUPPORT. The paths of the tree (42_tree_codes R205, R212): every symbol has one path from the root, its code's bits are that
path, and no path is the beginning of another. -/

namespace Sys2Proof.Machine

/-! ### Codes and their bits -/

@[simp] theorem Code.extend_len (k : Code) (b : Bool) : (k.extend b).len = k.len + 1 := rfl

/-- One more edge doubles the pattern and adds the edge's bit. -/
theorem Code.extend_pat_toNat {k : Code} (b : Bool) (h : k.pat.toNat < 2 ^ 254) :
    (k.extend b).pat.toNat = 2 * k.pat.toNat + b.toNat := by
  have hbit : ((BitVec.ofBool b).setWidth 255).toNat = b.toNat := by cases b <;> rfl
  have hshift : (k.pat <<< 1).toNat = k.pat.toNat <<< 1 := by
    rw [BitVec.toNat_shiftLeft, Nat.shiftLeft_eq, Nat.mod_eq_of_lt (by omega)]
  rw [extend, BitVec.toNat_or, hshift, hbit, ← Nat.shiftLeft_add_eq_or_of_lt (by cases b <;> decide), Nat.shiftLeft_eq]
  omega

/-- The code of a path from the root: one edge after the other (R205). -/
def codeOfPath (bs : List Bool) : Code := bs.foldl Code.extend ⟨0, 0⟩

theorem codeOfPath_append_singleton (bs : List Bool) (b : Bool) :
    codeOfPath (bs ++ [b]) = (codeOfPath bs).extend b := by
  rw [codeOfPath, List.foldl_append]
  rfl

/-- The length of a path of at most 255 edges fits in 8 bits. -/
theorem codeOfPath_len (bs : List Bool) (h : bs.length ≤ 255) : (codeOfPath bs).len.toNat = bs.length := by
  induction bs using List.reverseRecOn with
  | nil => rfl
  | append_singleton bs b ih =>
    rw [List.length_append, List.length_singleton] at h ⊢
    rw [codeOfPath_append_singleton, Code.extend_len, BitVec.toNat_add, ih (by omega)]
    exact Nat.mod_eq_of_lt (by simpa using Nat.lt_succ_of_le h)

/-- The pattern of a path needs no more bits than the path has edges. -/
theorem codeOfPath_pat_lt (bs : List Bool) (h : bs.length ≤ 255) : (codeOfPath bs).pat.toNat < 2 ^ bs.length := by
  induction bs using List.reverseRecOn with
  | nil => decide
  | append_singleton bs b ih =>
    rw [List.length_append, List.length_singleton] at h ⊢
    have hlt := ih (by omega)
    have hbit : b.toNat ≤ 1 := b.toNat_le
    rw [codeOfPath_append_singleton, Code.extend_pat_toNat b (hlt.trans_le (Nat.pow_le_pow_right (by decide) (by omega))),
      Nat.pow_succ]
    omega

/-- One more edge is one more bit at the end (30_encoding R138). -/
theorem codeBits_extend {k : Code} (b : Bool) (h : k.len.toNat < 255) : codeBits (k.extend b) = codeBits k ++ [b] := by
  have hlen : (k.extend b).len.toNat = k.len.toNat + 1 := by
    rw [Code.extend_len, BitVec.toNat_add]
    exact Nat.mod_eq_of_lt (by simpa using Nat.succ_lt_succ h)
  rw [codeBits, hlen, List.range_succ, List.map_append, List.map_singleton, codeBits]
  congr 1
  · refine List.map_congr_left fun j hj => ?_
    have hj : j < k.len.toNat := List.mem_range.mp hj
    simp only [Code.extend, BitVec.getLsbD_or, BitVec.getLsbD_shiftLeft, BitVec.getLsbD_setWidth, BitVec.getLsbD_ofBool]
    rw [show k.len.toNat + 1 - 1 - j - 1 = k.len.toNat - 1 - j by omega]
    simp [show k.len.toNat - j < 255 by omega, show k.len.toNat - j ≠ 0 by omega]
  · simp [Code.extend]

/-- The bits of a path's code are the path. -/
theorem codeBits_codeOfPath (bs : List Bool) (h : bs.length ≤ 255) : codeBits (codeOfPath bs) = bs := by
  induction bs using List.reverseRecOn with
  | nil => rfl
  | append_singleton bs b ih =>
    rw [List.length_append, List.length_singleton] at h
    rw [codeOfPath_append_singleton, codeBits_extend b (by rw [codeOfPath_len bs (by omega)]; omega), ih (by omega)]

/-! ### Paths in a tree -/

/-- The child a bit leads to (44_bitreader R250). -/
def child (node : Vector Node 511) (n : NodeIdx) (b : Bool) : NodeIdx := if b then (nodeOf node n).r else (nodeOf node n).l

/-- From node `n`, the bits `bs` lead through internal nodes to the leaf of symbol `s`. -/
inductive PathTo (node : Vector Node 511) : NodeIdx → List Bool → Symbol → Prop
  | leaf (n : NodeIdx) (h : n.toNat ≤ 255) : PathTo node n [] (n.setWidth 8)
  | edge (n : NodeIdx) (b : Bool) (bs : List Bool) (s : Symbol) (h : 255 < n.toNat)
      (hpath : PathTo node (child node n b) bs s) : PathTo node n (b :: bs) s

variable {node : Vector Node 511} {n : NodeIdx} {bs bs' : List Bool} {s s' : Symbol}

/-- The walk along a path ends at its leaf. -/
theorem PathTo.walkBits (h : PathTo node n bs s) : (walkBits node n bs).toNat = s.toNat := by
  induction h with
  | leaf n hn => exact (BitVec.toNat_setWidth 8 n ▸ Nat.mod_eq_of_lt (Nat.lt_succ_of_le hn)).symm
  | edge n b bs s hn hpath ih => exact ih

/-- A path that begins another is that path. -/
theorem PathTo.eq_of_isPrefix (h : PathTo node n bs s) (h' : PathTo node n bs' s') (hpre : bs <+: bs') :
    bs = bs' ∧ s = s' := by
  induction h generalizing bs' s' with
  | leaf n hn =>
    cases h' with
    | leaf => exact ⟨rfl, rfl⟩
    | edge _ b bs s hn' => exact absurd hn (Nat.not_le.mpr hn')
  | edge n b bs s hn hpath ih =>
    cases h' with
    | leaf => exact absurd hpre (by simp)
    | edge _ b' bs' s hn' hpath' =>
      obtain ⟨rfl, htail⟩ := List.cons_prefix_cons.mp hpre
      obtain ⟨rfl, rfl⟩ := ih hpath' htail
      exact ⟨rfl, rfl⟩

/-- Decoding along a path from an internal node gives the symbol, and goes on at the root. -/
theorem PathTo.decodeBits (h : PathTo node n bs s) (hn : 255 < n.toNat) (rest : List Bool) :
    decodeBits node n (bs ++ rest) = (decodeBits node rootNode rest).map (s :: ·) := by
  induction h with
  | leaf n hn' => exact absurd hn (Nat.not_lt.mpr hn')
  | edge n b bs s hn hpath ih =>
    by_cases hleaf : (child node n b).toNat ≤ 255
    · cases hpath with
      | leaf => exact decodeBits_leaf node n b rest hleaf
      | edge _ _ _ _ hn' => exact absurd hleaf (Nat.not_le.mpr hn')
    · rw [List.cons_append]
      exact (decodeBits_inner node n b _ (Nat.not_le.mp hleaf)).trans (ih (Nat.not_le.mp hleaf))

/-! ### All paths from a node -/

/-- The symbols under node `n` with their paths from it, in the order of the depth-first traversal (R205). -/
def leafPaths (node : Vector Node 511) : (fuel : Nat) → NodeIdx → List (Symbol × List Bool)
  | 0, _ => []
  | fuel + 1, n =>
    if n.toNat ≤ 255 then [(n.setWidth 8, [])]
    else (leafPaths node fuel (child node n false)).map (fun p => (p.1, false :: p.2)) ++
      (leafPaths node fuel (child node n true)).map (fun p => (p.1, true :: p.2))

theorem leafPaths_leaf (node : Vector Node 511) (fuel : Nat) (h : n.toNat ≤ 255) :
    leafPaths node (fuel + 1) n = [(n.setWidth 8, [])] :=
  if_pos h

theorem leafPaths_inner (node : Vector Node 511) (fuel : Nat) (h : 255 < n.toNat) :
    leafPaths node (fuel + 1) n = (leafPaths node fuel (child node n false)).map (fun p => (p.1, false :: p.2)) ++
      (leafPaths node fuel (child node n true)).map (fun p => (p.1, true :: p.2)) :=
  if_neg (Nat.not_le.mpr h)

/-- The traversal records for every leaf its path's edges, appended to the code it started with. -/
theorem leafCodes_eq_leafPaths (node : Vector Node 511) (fuel : Nat) (n : NodeIdx) (k : Code) :
    leafCodes node fuel n k = (leafPaths node fuel n).map fun p => (p.1, p.2.foldl Code.extend k) := by
  induction fuel generalizing n k with
  | zero => rfl
  | succ fuel ih =>
    by_cases hn : n.toNat ≤ 255
    · rw [leafCodes_leaf node fuel n k hn, leafPaths_leaf node fuel hn]
      rfl
    · have hn := Nat.not_le.mp hn
      rw [leafCodes_inner node fuel n k hn, leafPaths_inner node fuel hn, ih, ih, List.map_append, List.map_map, List.map_map]
      rfl

/-- What the traversal lists are paths. -/
theorem pathTo_of_mem_leafPaths {fuel : Nat} {p : Symbol × List Bool} (h : p ∈ leafPaths node fuel n) :
    PathTo node n p.2 p.1 := by
  induction fuel generalizing n p with
  | zero => cases h
  | succ fuel ih =>
    by_cases hn : n.toNat ≤ 255
    · rw [leafPaths_leaf node fuel hn, List.mem_singleton] at h
      exact h ▸ .leaf n hn
    · have hn := Nat.not_le.mp hn
      rw [leafPaths_inner node fuel hn, List.mem_append, List.mem_map, List.mem_map] at h
      rcases h with ⟨q, hq, rfl⟩ | ⟨q, hq, rfl⟩
      · exact .edge n false q.2 q.1 hn (ih hq)
      · exact .edge n true q.2 q.1 hn (ih hq)

/-! ### The paths of a tree whose children precede their parents -/

/-- The children of internal nodes have smaller indices (R202). -/
def ChildrenBelow (node : Vector Node 511) : Prop :=
  ∀ (n : NodeIdx) (b : Bool), 255 < n.toNat → n.toNat < 511 → (child node n b).toNat < n.toNat

theorem childrenBelow_treeBuild (count : Vector (BitVec 32) 256) : ChildrenBelow (treeBuild count) := by
  intro n b hn hn'
  obtain ⟨hl, hr⟩ := treeBuild_children_lt count hn hn'
  rw [← nodeOf_eq _ n hn'] at hl hr
  cases b
  · exact hl
  · exact hr

/-- From a node of index at most `255 + fuel` no path is longer than `fuel`; more fuel lists the same paths. -/
theorem leafPaths_fuel (hnode : ChildrenBelow node) {fuel fuel' : Nat} (hfuel : fuel ≤ 255) (hfuel' : fuel' ≤ 255)
    (h : n.toNat ≤ 255 + fuel) (h' : n.toNat ≤ 255 + fuel') :
    leafPaths node (fuel + 1) n = leafPaths node (fuel' + 1) n := by
  induction fuel generalizing fuel' n with
  | zero => rw [leafPaths_leaf node 0 h, leafPaths_leaf node fuel' h]
  | succ fuel ih =>
    by_cases hn : n.toNat ≤ 255
    · rw [leafPaths_leaf node _ hn, leafPaths_leaf node _ hn]
    · obtain ⟨fuel', rfl⟩ : ∃ k, fuel' = k + 1 := Nat.exists_eq_add_one.mpr (by omega)
      have hn := Nat.not_le.mp hn
      have hchild (b : Bool) : leafPaths node (fuel + 1) (child node n b) = leafPaths node (fuel' + 1) (child node n b) := by
        have hlt := hnode n b hn (by omega)
        exact ih (by omega) (by omega) (by omega) (by omega)
      rw [leafPaths_inner node _ hn, leafPaths_inner node _ hn, hchild, hchild]

theorem length_le_of_mem_leafPaths {fuel : Nat} {p : Symbol × List Bool} (h : p ∈ leafPaths node (fuel + 1) n) :
    p.2.length ≤ fuel := by
  induction fuel generalizing n p with
  | zero =>
    by_cases hn : n.toNat ≤ 255
    · rw [leafPaths_leaf node 0 hn, List.mem_singleton] at h
      exact h ▸ Nat.le_refl 0
    · rw [leafPaths_inner node 0 (Nat.not_le.mp hn)] at h
      cases h
  | succ fuel ih =>
    by_cases hn : n.toNat ≤ 255
    · rw [leafPaths_leaf node _ hn, List.mem_singleton] at h
      exact h ▸ Nat.zero_le _
    · rw [leafPaths_inner node _ (Nat.not_le.mp hn), List.mem_append, List.mem_map, List.mem_map] at h
      rcases h with ⟨q, hq, rfl⟩ | ⟨q, hq, rfl⟩ <;> exact Nat.succ_le_succ (ih hq)

/-- The paths are complete: each splits off its share of `2 ^ fuel`, and nothing is left (R212). -/
theorem sum_pow_leafPaths (hnode : ChildrenBelow node) {fuel : Nat} (hfuel : fuel ≤ 255) (h : n.toNat ≤ 255 + fuel) :
    ((leafPaths node (fuel + 1) n).map fun p => 2 ^ (fuel - p.2.length)).sum = 2 ^ fuel := by
  induction fuel generalizing n with
  | zero => rw [leafPaths_leaf node 0 h]; rfl
  | succ fuel ih =>
    by_cases hn : n.toNat ≤ 255
    · rw [leafPaths_leaf node _ hn]
      simp
    · have hn := Nat.not_le.mp hn
      have hchild (b : Bool) : ((leafPaths node (fuel + 1) (child node n b)).map fun p => 2 ^ (fuel - p.2.length)).sum =
          2 ^ fuel := by
        have hlt := hnode n b hn (by omega)
        exact ih (by omega) (by omega)
      rw [leafPaths_inner node _ hn, List.map_append, List.sum_append, List.map_map, List.map_map]
      simp only [Function.comp_def, List.length_cons, Nat.add_sub_add_right, hchild]
      omega

/-! ### Every symbol has its path -/

/-- The symbols under a node, in the order of the traversal. -/
def symbolsUnder (node : Vector Node 511) (n : Nat) : List Symbol :=
  (leafPaths node 256 (BitVec.ofNat 9 n)).map Prod.fst

theorem symbolsUnder_leaf (node : Vector Node 511) {n : Nat} (h : n < 256) : symbolsUnder node n = [BitVec.ofNat 8 n] := by
  have hn : (BitVec.ofNat 9 n).toNat = n := by rw [BitVec.toNat_ofNat, Nat.mod_eq_of_lt (by omega)]
  rw [symbolsUnder, leafPaths_leaf node 255 (by omega), List.map_singleton]
  congr 1
  exact BitVec.eq_of_toNat_eq (by rw [BitVec.toNat_setWidth, hn, BitVec.toNat_ofNat])

/-- Under an internal node are the symbols under its left and under its right child. -/
theorem symbolsUnder_inner (hnode : ChildrenBelow node) {m x y : Nat} (hm : 256 ≤ m) (hm' : m < 511) (hx : x < m) (hy : y < m)
    (hl : child node (BitVec.ofNat 9 m) false = BitVec.ofNat 9 x) (hr : child node (BitVec.ofNat 9 m) true = BitVec.ofNat 9 y) :
    symbolsUnder node m = symbolsUnder node x ++ symbolsUnder node y := by
  have toNat {k : Nat} (hk : k < 511) : (BitVec.ofNat 9 k).toNat = k := by
    rw [BitVec.toNat_ofNat, Nat.mod_eq_of_lt (by omega)]
  have hchild {k : Nat} (hk : k < m) : leafPaths node 255 (BitVec.ofNat 9 k) = leafPaths node 256 (BitVec.ofNat 9 k) :=
    leafPaths_fuel (fuel := 254) (fuel' := 255) hnode (by decide) (by decide) (by rw [toNat (by omega)]; omega)
      (by rw [toNat (by omega)]; omega)
  rw [symbolsUnder, leafPaths_inner node 255 (by rw [toNat hm']; omega), hl, hr, hchild hx, hchild hy, List.map_append,
    List.map_map, List.map_map]
  rfl

section
variable (count : Vector (BitVec 32) 256)

theorem child_treeBuild {i : Nat} (hi : i < 255) {x y : Active} {rest : List Active}
    (h : activesAfter count i = x :: y :: rest) :
    child (treeBuild count) (BitVec.ofNat 9 (256 + i)) false = BitVec.ofNat 9 x.n ∧
      child (treeBuild count) (BitVec.ofNat 9 (256 + i)) true = BitVec.ofNat 9 y.n := by
  have hnode : nodeOf (treeBuild count) (BitVec.ofNat 9 (256 + i)) = _ :=
    (nodeOf_ofNat (treeBuild count) (n := 256 + i) (by omega)).trans (treeBuild_inner count hi h)
  exact ⟨congrArg Node.l hnode, congrArg Node.r hnode⟩

/-- After every merge, each symbol stands under exactly one member of the active set. -/
theorem symbolsUnder_activesAfter {i : Nat} (hi : i ≤ 255) :
    ((activesAfter count i).flatMap fun a => symbolsUnder (treeBuild count) a.n).Perm
      ((List.range 256).map (BitVec.ofNat 8)) := by
  refine activesAfter_induction count
    (P := fun _ l => (l.flatMap fun a => symbolsUnder (treeBuild count) a.n).Perm ((List.range 256).map (BitVec.ofNat 8)))
    (fun _ _ _ hp h => (hp.symm.flatMap_right fun a => symbolsUnder (treeBuild count) a.n).trans h) ?leaves
    (fun i x y rest hi hl h => ?merge) hi
  case leaves =>
    have hleaf : (leafActives count).flatMap (fun a => symbolsUnder (treeBuild count) a.n) =
        (leafActives count).map fun a => BitVec.ofNat 8 a.n := by
      rw [List.map_eq_flatMap]
      exact List.flatMap_congr fun a ha => symbolsUnder_leaf _ ((mem_leafActives count).mp ha).1
    rw [hleaf, List.range_eq_range', ← map_n_leafActives count, List.map_map]
    rfl
  case merge =>
    have hx : x ∈ activesAfter count i := by simp [hl]
    have hy : y ∈ activesAfter count i := by simp [hl]
    obtain ⟨hleft, hright⟩ := child_treeBuild count hi hl
    rw [List.flatMap_cons, symbolsUnder_inner (childrenBelow_treeBuild count) (Nat.le_add_right 256 i) (by omega)
      (n_lt_of_mem_activesAfter count hi.le x hx) (n_lt_of_mem_activesAfter count hi.le y hy) hleft hright]
    simpa [List.flatMap_cons] using h

/-- Under the root every symbol stands exactly once. -/
theorem symbolsUnder_root : (symbolsUnder (treeBuild count) 510).Perm ((List.range 256).map (BitVec.ofNat 8)) := by
  obtain ⟨x, y, rest, hbefore, hafter⟩ := activesAfter_succ count (i := 254) (by decide)
  have hlen := length_activesAfter count (i := 254) (by decide)
  obtain rfl : rest = [] := by simpa [hbefore] using hlen
  have h := symbolsUnder_activesAfter count (i := 255) (by decide)
  rw [hafter] at h
  simpa [insertActive] using h

end

end Sys2Proof.Machine
end

section
/-! SUPPORT. The code table of a count table: each symbol's code is that of its path from the root (42_tree_codes R205, R212); and
the sum TOTAL_BITS holds (R206, R207). -/

namespace Sys2Proof.Machine

/-! ### The code recorded for a symbol -/

/-- Where no symbol is recorded twice, the code recorded for a symbol is the one found. -/
theorem codeIn_of_mem {leaves : List (Symbol × Code)} {p : Symbol × Code} (hnodup : (leaves.map Prod.fst).Nodup)
    (hp : p ∈ leaves) : codeIn leaves p.1.toNat = p.2 := by
  obtain ⟨q, hq⟩ := Option.isSome_iff_exists.mp
    (List.find?_isSome (p := fun q : Symbol × Code => Nat.beq q.1.toNat p.1.toNat).mpr ⟨p, hp, Nat.beq_refl _⟩)
  have hsym : q.1 = p.1 := BitVec.eq_of_toNat_eq (Nat.eq_of_beq_eq_true
    (List.find?_some (p := fun q : Symbol × Code => Nat.beq q.1.toNat p.1.toNat) hq))
  rw [codeIn, hq]
  exact congrArg Prod.snd (List.inj_on_of_nodup_map hnodup (List.mem_of_find?_eq_some hq) hp hsym)

variable (count : Vector (BitVec 32) 256)

/-- The symbols of the tree with their paths from the root. -/
def rootPaths : List (Symbol × List Bool) := leafPaths (treeBuild count) 256 rootNode

/-- Every symbol has exactly one path. -/
theorem map_fst_rootPaths : ((rootPaths count).map Prod.fst).Perm ((List.range 256).map (BitVec.ofNat 8)) :=
  symbolsUnder_root count

theorem nodup_rootPaths : ((rootPaths count).map Prod.fst).Nodup := by
  refine (map_fst_rootPaths count).nodup_iff.mpr (List.Nodup.map_on (fun x hx y hy hxy => ?_) List.nodup_range)
  have hx := List.mem_range.mp hx
  have hy := List.mem_range.mp hy
  have h := congrArg BitVec.toNat hxy
  rwa [BitVec.toNat_ofNat, BitVec.toNat_ofNat, Nat.mod_eq_of_lt hx, Nat.mod_eq_of_lt hy] at h

theorem getElem_codeTable (x : Nat) (h : x < 256) : (codeTable count)[x] = codeIn (allLeafCodes (treeBuild count)) x := by
  simp [codeTable, codeGen]

theorem allLeafCodes_eq : allLeafCodes (treeBuild count) = (rootPaths count).map fun p => (p.1, codeOfPath p.2) :=
  leafCodes_eq_leafPaths (treeBuild count) 256 rootNode ⟨0, 0⟩

/-- The code recorded for a symbol of the tree is that of its path. -/
theorem codeIn_allLeafCodes {p : Symbol × List Bool} (hp : p ∈ rootPaths count) :
    codeIn (allLeafCodes (treeBuild count)) p.1.toNat = codeOfPath p.2 := by
  rw [allLeafCodes_eq]
  refine codeIn_of_mem (p := (p.1, codeOfPath p.2)) ?_ (List.mem_map.mpr ⟨p, hp, rfl⟩)
  rw [List.map_map]
  exact nodup_rootPaths count

/-- A symbol's path from the root, and its code, which is that of the path. -/
theorem exists_path_of_symbol (sym : Symbol) : ∃ bs, PathTo (treeBuild count) rootNode bs sym ∧ bs ≠ [] ∧ bs.length ≤ 255 ∧
    (codeTable count)[sym.toNat] = codeOfPath bs := by
  have hsym : sym ∈ (rootPaths count).map Prod.fst := by
    rw [(map_fst_rootPaths count).mem_iff, List.mem_map]
    exact ⟨sym.toNat, List.mem_range.mpr sym.isLt, by simp⟩
  obtain ⟨⟨sym, bs⟩, hp, rfl⟩ := List.mem_map.mp hsym
  have hpath : PathTo (treeBuild count) rootNode bs sym := pathTo_of_mem_leafPaths hp
  refine ⟨bs, hpath, ?_, length_le_of_mem_leafPaths hp, ?_⟩
  · rintro rfl
    cases hpath with
    | leaf _ h => exact absurd h (by decide)
  · rw [getElem_codeTable]
    exact codeIn_allLeafCodes count hp

/-- The same for a symbol given by its number. -/
theorem exists_path (x : Nat) (h : x < 256) : ∃ bs, PathTo (treeBuild count) rootNode bs (BitVec.ofNat 8 x) ∧ bs ≠ [] ∧
    bs.length ≤ 255 ∧ (codeTable count)[x] = codeOfPath bs := by
  have hx : (BitVec.ofNat 8 x).toNat = x := by rw [BitVec.toNat_ofNat, Nat.mod_eq_of_lt h]
  simpa only [hx] using exists_path_of_symbol count (BitVec.ofNat 8 x)

/-- Every pattern is below 2^LEN (10_state R61, 42_tree_codes R212). -/
theorem codeTable_pat_lt (x : Nat) (h : x < 256) :
    (codeTable count)[x].pat.toNat < 2 ^ (codeTable count)[x].len.toNat := by
  obtain ⟨bs, -, -, hlen, hcode⟩ := exists_path count x h
  rw [hcode, codeOfPath_len bs hlen]
  exact codeOfPath_pat_lt bs hlen

/-- The bits of a symbol's code lead from the root to its leaf. -/
theorem pathTo_codeBits (sym : Symbol) : PathTo (treeBuild count) rootNode (codeBits (codeTable count)[sym.toNat]) sym := by
  obtain ⟨bs, hpath, -, hlen, hcode⟩ := exists_path_of_symbol count sym
  rwa [hcode, codeBits_codeOfPath bs hlen]

/-- The codes are complete (R212): over the symbols of the tree their shares are those of the paths. -/
theorem sum_pow_codeTable : ((codeTable count).toList.map fun k => 2 ^ (255 - k.len.toNat)).sum = 2 ^ 255 := by
  have hsymbols : ((codeTable count).toList.map fun k => 2 ^ (255 - k.len.toNat)) =
      ((List.range 256).map (BitVec.ofNat 8)).map fun sym : Symbol =>
        2 ^ (255 - (codeIn (allLeafCodes (treeBuild count)) sym.toNat).len.toNat) := by
    change ((List.range 256).map (codeIn (allLeafCodes (treeBuild count)))).map _ = _
    rw [List.map_map, List.map_map]
    refine List.map_congr_left fun x hx => ?_
    have hx := List.mem_range.mp hx
    simp only [Function.comp_apply, BitVec.toNat_ofNat, Nat.mod_eq_of_lt hx]
  have hpaths : ((rootPaths count).map fun p =>
      2 ^ (255 - (codeIn (allLeafCodes (treeBuild count)) p.1.toNat).len.toNat)) =
      (rootPaths count).map fun p => 2 ^ (255 - p.2.length) :=
    List.map_congr_left fun p hp => by
      rw [codeIn_allLeafCodes count hp, codeOfPath_len _ (length_le_of_mem_leafPaths hp)]
  rw [hsymbols, ← ((map_fst_rootPaths count).map _).sum_eq, List.map_map]
  refine (congrArg List.sum hpaths).trans (sum_pow_leafPaths (childrenBelow_treeBuild count) (fuel := 255) le_rfl ?_)
  decide

/-! ### TOTAL_BITS -/

/-- The sum of R206, written over the symbols. -/
theorem totalBitsNat_eq (code : Vector Code 256) :
    totalBitsNat count code = ((List.finRange 256).map fun x => count[x].toNat * code[x].len.toNat).sum := by
  rw [totalBitsNat]
  congr 1
  exact List.ext_getElem (by simp) fun i h h' => by simp

/-- It is below 2^48 (10_state R44). -/
theorem totalBitsNat_lt (code : Vector Code 256) : totalBitsNat count code < 2 ^ 48 := by
  have hterm : ∀ t ∈ (List.finRange 256).map fun x => count[x].toNat * code[x].len.toNat, t ≤ (2 ^ 32 - 1) * 255 := by
    intro t ht
    obtain ⟨x, -, rfl⟩ := List.mem_map.mp ht
    exact Nat.mul_le_mul (Nat.le_sub_one_of_lt count[x].isLt) (Nat.le_of_lt_succ code[x].len.isLt)
  have hsum := List.sum_le_card_nsmul _ _ hterm
  rw [List.length_map, List.length_finRange, smul_eq_mul, ← totalBitsNat_eq] at hsum
  omega

theorem toNat_totalBitsOf (code : Vector Code 256) : (totalBitsOf count code).toNat = totalBitsNat count code := by
  have h := totalBitsNat_lt count code
  rw [totalBitsOf, BitVec.toNat_ofNat, Nat.mod_eq_of_lt (by omega)]

theorem toNat_tbcOf (t : Counter) : (tbcOf t).toNat = if t.toNat % 8 = 0 then 8 else t.toNat % 8 := by
  unfold tbcOf
  split
  · rfl
  · rw [BitVec.toNat_ofNat, Nat.mod_eq_of_lt (by omega)]

end Sys2Proof.Machine

open Sys2Proof Sys2Proof.Machine

/-- Settles O40: each code is that of its symbol's path; a path has 1 to 255 edges, begins no other, and the paths are complete. -/
theorem codesArePrefixFreeAndComplete : Obligations.CodesArePrefixFreeAndComplete := by
  refine fun count => ⟨fun x h => ?lengths, fun x y hx hy hpre => ?free, sum_pow_codeTable count⟩
  case lengths =>
    obtain ⟨bs, -, hne, hlen, hcode⟩ := exists_path count x h
    have hpat := codeTable_pat_lt count x h
    rw [hcode, codeOfPath_len bs hlen] at *
    exact ⟨List.length_pos_iff.mpr hne, hlen, hpat⟩
  case free =>
    obtain ⟨bs, hpath, -, hlen, hcode⟩ := exists_path count x hx
    obtain ⟨bs', hpath', -, hlen', hcode'⟩ := exists_path count y hy
    rw [hcode, hcode', codeBits_codeOfPath bs hlen, codeBits_codeOfPath bs' hlen'] at hpre
    have h := congrArg BitVec.toNat (hpath.eq_of_isPrefix hpath' hpre).2
    rwa [BitVec.toNat_ofNat, BitVec.toNat_ofNat, Nat.mod_eq_of_lt hx, Nat.mod_eq_of_lt hy] at h

/-- Settles O41: the bits of a code are its symbol's path. -/
theorem walkAlongACodeReachesItsSymbol : Obligations.WalkAlongACodeReachesItsSymbol := by
  intro count x h
  have hx : (BitVec.ofNat 8 x).toNat = x := by rw [BitVec.toNat_ofNat, Nat.mod_eq_of_lt h]
  have hwalk := (pathTo_codeBits count (BitVec.ofNat 8 x)).walkBits
  simpa only [hx] using hwalk

/-- Settles O42: each of the 256 products is below 2^40, so the sum fits in 48 bits, and in the 64 of TOTAL_BITS. -/
theorem totalBitsIsExact : Obligations.TotalBitsIsExact := by
  intro count code sum
  have hsum : totalBitsNat count code = sum := totalBitsNat_eq count code
  exact ⟨hsum ▸ totalBitsNat_lt count code, hsum, hsum ▸ toNat_totalBitsOf count code,
    by rw [toNat_tbcOf, toNat_totalBitsOf, hsum]⟩
end

section
/-! SUPPORT. The invariant of the datapath (10_state R47, R48, R61 to R63): what keeps the tables, the packer, the reader and the header
loader in their bounds. -/

namespace Sys2Proof

open Machine

/-! ### The tables -/

/-- Where the code table is valid, so is the tree (10_state R62). -/
theorem treeValid_of_codesValid {u : UnitId} {p : Phase} (h : codesValid u p = true) : treeValid u p = true := by
  cases u <;> exact decide_eq_true (List.mem_cons_of_mem _ (of_decide_eq_true h))

/-- In a phase in which no table is valid nothing is claimed of them. -/
theorem tablesAgree_of_not_valid {u : UnitId} {c : Common} (h : treeValid u c.phase = false) : TablesAgree u c :=
  ⟨fun h' => Bool.noConfusion (h.symm.trans h'), fun h' => Bool.noConfusion (h.symm.trans (treeValid_of_codesValid h'))⟩

/-- Tables and counts that stay agree in every phase in which they were valid before. -/
theorem TablesAgree.mono {u : UnitId} {c c' : Common} (h : TablesAgree u c)
    (htree : treeValid u c'.phase = true → treeValid u c.phase = true)
    (hcodes : codesValid u c'.phase = true → codesValid u c.phase = true)
    (hcount : c'.count = c.count) (hnode : c'.node = c.node) (hcode : c'.code = c.code)
    (htotal : c'.totalBits = c.totalBits) (htbc : c'.calcTbc = c.calcTbc) : TablesAgree u c' := by
  unfold TablesAgree
  rw [hcount, hnode, hcode, htotal, htbc]
  exact ⟨fun hv => h.1 (htree hv), fun hv => h.2 (hcodes hv)⟩

/-- BUILD_TREE makes the tree that of COUNT; the code table is not valid yet. -/
theorem tablesAgree_buildTree {u : UnitId} {c c' : Common} (hphase : c'.phase = .treeBuilt)
    (hnode : c'.node = treeBuild c.count) (hcount : c'.count = c.count) : TablesAgree u c' := by
  refine ⟨fun _ => hnode.trans (congrArg treeBuild hcount.symm), fun hv => ?_⟩
  rw [hphase] at hv
  cases u <;> cases hv

/-- GEN_CODES in TREE_BUILT makes CODE, TOTAL_BITS and CALC_TBC those of the tree. -/
theorem TablesAgree.genCodes {u : UnitId} {c c' : Common} (h : TablesAgree u c) (hphase : c.phase = .treeBuilt)
    (hnode : c'.node = c.node) (hcount : c'.count = c.count) (hcode : c'.code = codeGen c.node)
    (htotal : c'.totalBits = totalBitsOf c.count (codeGen c.node))
    (htbc : c'.calcTbc = tbcOf (totalBitsOf c.count (codeGen c.node))) : TablesAgree u c' := by
  have hvalid : treeValid u c.phase = true := by rw [hphase]; cases u <;> rfl
  refine ⟨fun _ => by rw [hnode, hcount, h.1 hvalid], fun _ => ⟨by rw [hcode, hnode], by rw [htotal, hcount, hcode], ?_⟩⟩
  rw [htbc, htotal]

/-- Where the code table is valid it is that of COUNT. -/
theorem TablesAgree.code_eq {u : UnitId} {c : Common} (h : TablesAgree u c) (hv : codesValid u c.phase = true) :
    c.code = codeTable c.count := by
  rw [(h.2 hv).1, h.1 (treeValid_of_codesValid hv), codeTable]

/-- So every pattern is below 2^LEN there. -/
theorem TablesAgree.pat_lt {u : UnitId} {c : Common} (h : TablesAgree u c) (hv : codesValid u c.phase = true) (x : Nat)
    (hx : x < 256) : c.code[x].pat.toNat < 2 ^ c.code[x].len.toNat := by
  simp only [h.code_eq hv]
  exact codeTable_pat_lt c.count x hx

/-- A host access changes no table and no count, and PHASE only into ERROR. -/
theorem Machine.Common.HostStepsTo.tables {c c' : Common} (h : c.HostStepsTo c') :
    (c'.phase = c.phase ∨ c'.phase = .error) ∧ c'.count = c.count ∧ c'.node = c.node ∧ c'.code = c.code ∧
      c'.totalBits = c.totalBits ∧ c'.calcTbc = c.calcTbc := by
  cases h with
  | writes r v =>
    cases r
    case cmd =>
      rcases c.cmdWrite_cases v with ⟨-, h⟩ | ⟨-, -, -, h⟩ | ⟨-, -, h⟩ <;> rw [Common.regWrite, h]
      · exact ⟨.inr rfl, rfl, rfl, rfl, rfl, rfl⟩
      · exact ⟨.inl rfl, rfl, rfl, rfl, rfl, rfl⟩
      · exact ⟨.inl rfl, rfl, rfl, rfl, rfl, rfl⟩
    all_goals exact ⟨.inl rfl, rfl, rfl, rfl, rfl, rfl⟩
  | _ => exact ⟨.inl rfl, rfl, rfl, rfl, rfl, rfl⟩

theorem TablesAgree.host {u : UnitId} {c c' : Common} (h : TablesAgree u c) (hc : c.HostStepsTo c') : TablesAgree u c' := by
  obtain ⟨hphase, hcount, hnode, hcode, htotal, htbc⟩ := hc.tables
  rcases hphase with hphase | hphase
  · exact h.mono (hphase ▸ id) (hphase ▸ id) hcount hnode hcode htotal htbc
  · exact tablesAgree_of_not_valid (by rw [hphase]; cases u <;> rfl)

/-- A micro-step of ENC keeps the tables those of COUNT. -/
theorem TablesAgree.enc_micro {e e' : Enc} {i : Instr} (h : TablesAgree .enc e.core) (hstep : e.StepsTo i e') :
    TablesAgree .enc e'.core := by
  cases hstep with
  | holds => exact h
  | raises _ k hk => exact tablesAgree_of_not_valid rfl
  | nop => exact h.mono id id rfl rfl rfl rfl rfl
  | clear => exact tablesAgree_of_not_valid rfl
  | accum sym hphase => exact tablesAgree_of_not_valid rfl
  | accumByte b rest hphase hinput => exact tablesAgree_of_not_valid (by simp [hphase, treeValid])
  | accumOverflow b rest hinput => exact tablesAgree_of_not_valid rfl
  | accumEnd rest hphase hinput => exact tablesAgree_of_not_valid rfl
  | buildTree hphase | prepareTree hphase => exact tablesAgree_buildTree rfl rfl rfl
  | genCodes hphase | prepareCodes hphase => exact h.genCodes hphase rfl rfl rfl rfl rfl
  | emitHeader _ hi hphase =>
    exact h.mono (fun _ => by rw [hphase]; rfl) (fun _ => by rw [hphase]; rfl) rfl rfl rfl rfl rfl
  | pack sym hphase =>
    obtain ⟨bs, hbs⟩ := e.append_core (e.core.codeAt sym)
    refine h.mono (fun _ => ?_) (fun _ => ?_) (by simp [hbs]) (by simp [hbs]) (by simp [hbs]) (by simp [hbs]) (by simp [hbs])
      <;> rcases hphase with hphase | hphase <;> rw [hphase] <;> rfl
  | packByte b rest hphase hinput =>
    obtain ⟨bs, hbs⟩ := (e.withCore e.core.consume).append_core (e.core.codeAt b)
    exact h.mono (by simp [hbs]) (by simp [hbs]) (by simp [hbs]) (by simp [hbs]) (by simp [hbs]) (by simp [hbs]) (by simp [hbs])
  | packEnd rest hphase hinput =>
    refine h.mono (fun _ => ?_) (fun _ => ?_) (by simp) (by simp) (by simp) (by simp) (by simp)
      <;> rcases hphase with hphase | hphase <;> rw [hphase] <;> rfl
  | finish hphase =>
    obtain ⟨bs, finTbc, hcore⟩ := e.finish_core
    refine h.mono (fun _ => ?_) (fun _ => ?_) (by simp [hcore]) (by simp [hcore]) (by simp [hcore]) (by simp [hcore])
      (by simp [hcore]) <;> rcases hphase with hphase | hphase <;> rw [hphase] <;> rfl
  | drainByte b rest hinput => exact h.mono (by simp) (by simp) (by simp) (by simp) (by simp) (by simp) (by simp)
  | drainEnd rest hinput => exact h.mono id id (by simp) (by simp) (by simp) (by simp) (by simp)

/-- A micro-step of DEC keeps the tables those of COUNT. -/
theorem TablesAgree.dec_micro {d d' : Dec} {i : Instr} (h : TablesAgree .dec d.core) (hstep : d.StepsTo i d') :
    TablesAgree .dec d'.core := by
  cases hstep with
  | holds => exact h
  | raises _ k hk => exact tablesAgree_of_not_valid rfl
  | raisesAtEos _ k rest hi hk hinput => exact tablesAgree_of_not_valid rfl
  | nop => exact h.mono id id rfl rfl rfl rfl rfl
  | clear => exact tablesAgree_of_not_valid rfl
  | loadStart hphase | runStart hphase => exact h.mono id id rfl rfl rfl rfl rfl
  | loadByte _ hi b rest hphase hinput hidx hbegun =>
    exact tablesAgree_of_not_valid (by simp [Common.loadHeaderByte, hphase, treeValid])
  | loadLast b rest hphase hinput hidx | runLoadLast b rest hphase hinput hidx => exact tablesAgree_of_not_valid rfl
  | buildTree hphase | runBuildTree hphase => exact tablesAgree_buildTree rfl rfl rfl
  | genCodes hphase | runGenCodes hphase => exact h.genCodes hphase rfl rfl rfl rfl rfl
  | checkTbc v rest hphase hinput | runCheckTbc v rest hphase hinput =>
    exact h.mono (fun _ => by rw [hphase]; rfl) (fun _ => by rw [hphase]; rfl) (by simp) (by simp) (by simp) (by simp) (by simp)
  | tbcMismatch _ hi v rest hinput => exact tablesAgree_of_not_valid rfl
  | bit _ hi d1 hphase hbit =>
    obtain ⟨c, bs, hcore, rfl | ⟨rfl, -⟩⟩ := core_afterBit_of_hasBit hbit <;>
      exact h.mono (by simp [hcore]) (by simp [hcore]) (by simp [hcore]) (by simp [hcore]) (by simp [hcore]) (by simp [hcore])
        (by simp [hcore])
  | symbol d1 hphase hbit =>
    obtain ⟨c, bs, hcore, rfl | ⟨rfl, -⟩⟩ := core_afterBit_of_hasBit hbit <;>
      exact h.mono (fun _ => by rw [hphase]; rfl) (fun _ => by rw [hphase]; rfl) (by simp [hcore]) (by simp [hcore])
        (by simp [hcore]) (by simp [hcore]) (by simp [hcore])
  | endOfPayload _ hi rest hphase hinput =>
    exact h.mono (fun _ => by rw [hphase]; rfl) (fun _ => by rw [hphase]; rfl) (by simp) (by simp) (by simp) (by simp) (by simp)
  | drainByte b rest hinput => exact h.mono (by simp) (by simp) (by simp) (by simp) (by simp) (by simp) (by simp)
  | drainEnd rest hinput => exact h.mono id id (by simp) (by simp) (by simp) (by simp) (by simp)

/-! ### The packer -/

/-- The packer's own bounds (43_bitpacker R230). -/
def PendingOk (e : Enc) : Prop := e.pkPend.toNat ≤ 8 ∧ e.pkAcc.toNat < 2 ^ e.pkPend.toNat

/-- Nothing pending. -/
theorem pendingOk_of_none {e : Enc} (hacc : e.pkAcc = 0) (hpend : e.pkPend = 0) : PendingOk e := by
  rw [PendingOk, hacc, hpend]
  decide

/-- The accumulator with a code appended, as a number. -/
theorem appended_eq (acc len pat : Nat) (hpat : pat < 2 ^ len) : acc <<< len ||| pat = acc * 2 ^ len + pat := by
  rw [← Nat.shiftLeft_add_eq_or_of_lt hpat, Nat.shiftLeft_eq]

/-- Appending a code keeps the packer in its bounds. -/
theorem PendingOk.append {e : Enc} {k : Code} (h : PendingOk e) (hk : k.pat.toNat < 2 ^ k.len.toNat) :
    PendingOk (e.append k) := by
  obtain ⟨hpend, hacc⟩ := h
  by_cases hle : e.pkPend.toNat + k.len.toNat ≤ 8
  · rw [e.append_of_le k hle]
    have hlt : e.pkAcc.toNat * 2 ^ k.len.toNat + k.pat.toNat < 2 ^ (e.pkPend.toNat + k.len.toNat) := by
      rw [Nat.pow_add]
      nlinarith [Nat.two_pow_pos k.len.toNat]
    have h256 : 2 ^ (e.pkPend.toNat + k.len.toNat) ≤ 2 ^ 8 := Nat.pow_le_pow_right (by decide) hle
    rw [PendingOk, appended_eq _ _ _ hk, BitVec.toNat_ofNat, BitVec.toNat_ofNat, Nat.mod_eq_of_lt (a := _ + _) (by omega),
      Nat.mod_eq_of_lt (by omega)]
    exact ⟨hle, hlt⟩
  · rw [e.append_of_lt k (Nat.not_le.mp hle)]
    generalize (e.pkAcc.toNat <<< k.len.toNat) ||| k.pat.toNat = a
    have hmod : (e.pkPend.toNat + k.len.toNat) % 8 < 8 := Nat.mod_lt _ (by decide)
    have h256 : 2 ^ ((e.pkPend.toNat + k.len.toNat) % 8) ≤ 2 ^ 8 := Nat.pow_le_pow_right (by decide) hmod.le
    have hlt := Nat.mod_lt a (Nat.two_pow_pos ((e.pkPend.toNat + k.len.toNat) % 8))
    have hpend' : (BitVec.ofNat 4 ((e.pkPend.toNat + k.len.toNat) % 8)).toNat = (e.pkPend.toNat + k.len.toNat) % 8 := by
      rw [BitVec.toNat_ofNat, Nat.mod_eq_of_lt (by omega : _ < 2 ^ 4)]
    simp only [PendingOk, hpend']
    rw [Nat.and_two_pow_sub_one_eq_mod, BitVec.toNat_ofNat, Nat.mod_eq_of_lt (hlt.trans_le h256)]
    exact ⟨hmod.le, hlt⟩

/-- A micro-step of ENC keeps the packer in its bounds. -/
theorem PendingOk.micro {e e' : Enc} {i : Instr} (h : PendingOk e) (htables : TablesAgree .enc e.core)
    (hstep : e.StepsTo i e') : PendingOk e' := by
  have hcode (sym : Symbol) (hphase : e.core.phase = .headerSent ∨ e.core.phase = .packing) :
      (e.core.codeAt sym).pat.toNat < 2 ^ (e.core.codeAt sym).len.toNat :=
    htables.pat_lt (by rcases hphase with hphase | hphase <;> rw [hphase] <;> rfl) sym.toNat sym.isLt
  cases hstep with
  | clear | finish => exact pendingOk_of_none rfl rfl
  | pack sym hphase => exact h.append (hcode sym hphase)
  | packByte b rest hphase hinput => exact PendingOk.append (e := e.withCore e.core.consume) h (hcode b hphase)
  | _ => exact h

/-- The invariant of ENC's part of the datapath: the packer's bounds and the tables; the bound on patterns follows. -/
theorem packerOk_and_tablesAgree_iff (e : Enc) :
    PackerOk e ∧ TablesAgree .enc e.core ↔ PendingOk e ∧ TablesAgree .enc e.core :=
  ⟨fun ⟨⟨hpend, hacc, _⟩, ht⟩ => ⟨⟨hpend, hacc⟩, ht⟩,
    fun ⟨⟨hpend, hacc⟩, ht⟩ => ⟨⟨hpend, hacc, fun hv x => ht.pat_lt hv x.val x.isLt⟩, ht⟩⟩

/-- Every step keeps ENC's part of the datapath invariant. -/
theorem encData_step {e e' : Enc} (hp : PendingOk e) (ht : TablesAgree .enc e.core) (h : e.Becomes e') :
    PendingOk e' ∧ TablesAgree .enc e'.core := by
  cases h with
  | illegal => exact ⟨hp, tablesAgree_of_not_valid rfl⟩
  | runs i _ _ _ h => exact ⟨hp.micro ht h, ht.enc_micro h⟩
  | host c h => exact ⟨hp, ht.host h⟩
  | reset => exact ⟨pendingOk_of_none rfl rfl, tablesAgree_of_not_valid rfl⟩

/-! ### The reader -/

/-- An empty reader at the root. -/
theorem readerOk_rewind {d : Dec} (hbuf : d.brBuf = 0) (hcnt : d.brCnt = 0) (hnode : d.walkNode = rootNode) : ReaderOk d := by
  rw [ReaderOk, hbuf, hcnt, hnode]
  decide

/-- A unit with the same reader. -/
theorem ReaderOk.of_eq {d d' : Dec} (h : ReaderOk d) (hbuf : d'.brBuf = d.brBuf) (hcnt : d'.brCnt = d.brCnt)
    (hnode : d'.walkNode = d.walkNode) : ReaderOk d' := by
  rw [ReaderOk, hbuf, hcnt, hnode]
  exact h

/-- A payload byte loaded in DECODING: 8 bits, or of the last one CALC_TBC bits, which are 1 to 8. -/
theorem readerOk_afterLoad {d : Dec} (h : ReaderOk d) (htbc : d.core.calcTbc.toNat ≤ 8) (htbc' : d.core.calcTbc.toNat ≠ 0)
    (b : Byte) (rest : List Token) (last : Bool) :
    ReaderOk (afterLoad d b rest last) ∧ (afterLoad d b rest last).brCnt.toNat ≠ 0 := by
  obtain ⟨-, -, hnode⟩ := h
  cases last with
  | false => exact ⟨⟨Nat.le_refl 8, b.isLt, hnode⟩, Nat.succ_ne_zero 7⟩
  | true =>
    refine ⟨⟨htbc, ?_, hnode⟩, htbc'⟩
    simp only [afterLoad, if_true, BitVec.toNat_ushiftRight, Nat.shiftRight_eq_div_pow]
    have hb : b.toNat < 2 ^ d.core.calcTbc.toNat * 2 ^ (8 - d.core.calcTbc.toNat) := by
      rw [← Nat.pow_add, Nat.add_sub_cancel' htbc]
      exact b.isLt
    exact Nat.div_lt_of_lt_mul (by rwa [Nat.mul_comm] at hb)

/-- The reader after one bit of a tree whose children precede their parents. -/
theorem readerOk_afterBit {d : Dec} (h : ReaderOk d) (hcnt : d.brCnt.toNat ≠ 0) (hnode : ChildrenBelow d.core.node) :
    ReaderOk (afterBit d) := by
  obtain ⟨hle, -, hlow, hhigh⟩ := h
  have hone : (d.brCnt - 1).toNat = d.brCnt.toNat - 1 := by
    rw [BitVec.toNat_sub_of_le (by rw [BitVec.le_def]; exact Nat.one_le_iff_ne_zero.mpr hcnt)]
    rfl
  have h256 : 2 ^ (d.brCnt.toNat - 1) ≤ 2 ^ 7 := Nat.pow_le_pow_right (by decide) (by omega)
  have hpos := Nat.two_pow_pos (d.brCnt.toNat - 1)
  have hchild : (childTaken d).toNat < d.walkNode.toNat := hnode d.walkNode (d.brBuf.getLsbD (d.brCnt.toNat - 1)) hlow (by omega)
  refine ⟨?_, ?_, ?_⟩
  · exact hone ▸ (Nat.sub_le _ _).trans hle
  · simp only [afterBit, hone, BitVec.toNat_and, BitVec.toNat_ofNat]
    exact Nat.lt_of_le_of_lt Nat.and_le_right (by omega)
  · by_cases hleaf : (childTaken d).toNat ≤ 255
    · simp [afterBit, hleaf]
    · simp only [afterBit, hleaf, decide_false, Bool.false_eq_true, if_false]
      omega

/-- The reader once a bit has been taken in DECODING. -/
theorem ReaderOk.bit {d d' : Dec} (h : ReaderOk d) (ht : TablesAgree .dec d.core) (hphase : d.core.phase = .decoding)
    (hbit : HasBit d d') : ReaderOk (afterBit d') := by
  have hcodes : codesValid .dec d.core.phase = true := by rw [hphase]; rfl
  have hnode : ChildrenBelow d.core.node := by
    rw [ht.1 (treeValid_of_codesValid hcodes)]
    exact childrenBelow_treeBuild _
  rcases hbit with ⟨hcnt, rfl⟩ | ⟨-, b, t, rest, -, rfl⟩
  · exact readerOk_afterBit h (fun h0 => hcnt (BitVec.eq_of_toNat_eq h0)) hnode
  · obtain ⟨-, -, htbc⟩ := ht.2 hcodes
    obtain ⟨hok, hcnt⟩ := readerOk_afterLoad h (by rw [htbc, toNat_tbcOf]; split <;> omega)
      (by rw [htbc]; exact tbcOf_ne_zero _) b (t :: rest) (decide (t = .eos))
    exact readerOk_afterBit hok hcnt hnode

/-- A micro-step of DEC keeps the reader in its bounds. -/
theorem ReaderOk.micro {d d' : Dec} {i : Instr} (h : ReaderOk d) (ht : TablesAgree .dec d.core) (hstep : d.StepsTo i d') :
    ReaderOk d' := by
  cases hstep with
  | clear | checkTbc | runCheckTbc => exact readerOk_rewind rfl rfl rfl
  | bit _ hi d1 hphase hbit | symbol d1 hphase hbit => exact (h.bit ht hphase hbit).of_eq rfl rfl rfl
  | _ => exact h.of_eq rfl rfl rfl

/-! ### The header loader -/

/-- With no header byte to come, HDR_IDX need only be in its range. -/
theorem headerIndexOk_of_not {d : Dec} (h : d.hdrIdx ≤ 1024)
    (hnot : d.core.busy = false ∨ d.core.begun = false ∨ d.core.phase ≠ .ready) : HeaderIndexOk d := by
  refine ⟨h, fun hbusy hbegun hphase _ => ?_⟩
  rcases hnot with hn | hn | hn
  · exact Bool.noConfusion (hn.symm.trans hbusy)
  · exact Bool.noConfusion (hn.symm.trans hbegun)
  · exact absurd hphase hn

/-- A micro-step of DEC keeps HDR_IDX in its range. -/
theorem HeaderIndexOk.micro {d d' : Dec} {i : Instr} (h : HeaderIndexOk d) (hbusy : d.core.busy = true)
    (hdecode : decode .dec d.core.cur = .ok i) (hstep : d.StepsTo i d') : HeaderIndexOk d' := by
  have hrange := h.1
  cases hstep with
  | holds => exact h
  | loadStart hphase | runStart hphase => exact ⟨Nat.zero_le _, fun _ _ _ _ => Nat.zero_lt_succ _⟩
  | loadByte _ hi b rest hphase hinput hidx hbegun =>
    have hlt : d.hdrIdx < 1024 := h.2 hbusy hbegun hphase (by rcases hi with rfl | rfl <;> simp [hdecode])
    exact ⟨hlt, fun _ _ _ _ => Nat.lt_of_le_of_ne hlt hidx⟩
  | loadLast b rest hphase hinput hidx | runLoadLast b rest hphase hinput hidx =>
    exact headerIndexOk_of_not hidx.le (.inr (.inr (by simp)))
  | runBuildTree | runGenCodes | runCheckTbc => exact headerIndexOk_of_not hrange (.inr (.inr (by simp)))
  | bit _ hi d1 hphase hbit =>
    have hidx : (afterBit d1).hdrIdx = d.hdrIdx := by rcases hbit with ⟨-, rfl⟩ | ⟨-, _, _, _, -, rfl⟩ <;> rfl
    obtain ⟨c, bs, hcore, rfl | ⟨rfl, -⟩⟩ := core_afterBit_of_hasBit hbit <;>
      exact headerIndexOk_of_not (hidx.le.trans hrange) (.inr (.inr (by simp [hcore, hphase])))
  | symbol d1 hphase hbit =>
    have hidx : (afterBit d1).hdrIdx = d.hdrIdx := by rcases hbit with ⟨-, rfl⟩ | ⟨-, _, _, _, -, rfl⟩ <;> rfl
    exact headerIndexOk_of_not (hidx.le.trans hrange) (.inl rfl)
  | drainByte b rest hinput =>
    refine ⟨hrange, fun _ _ _ hcur => ?_⟩
    rw [Dec.withCore_core, Common.goOn_cur, Common.consume_cur, hdecode] at hcur
    rcases hcur with hcur | hcur <;> cases hcur
  | _ => exact headerIndexOk_of_not hrange (.inl rfl)

/-- A host access leaves the header loader waiting for the same byte, or no longer waiting. -/
theorem HeaderIndexOk.host {d : Dec} {c : Common} (h : HeaderIndexOk d) (hc : d.core.HostStepsTo c) :
    HeaderIndexOk (d.withCore c) := by
  cases hc with
  | writes r v =>
    cases r
    case cmd =>
      rcases d.core.cmdWrite_cases v with ⟨-, hw⟩ | ⟨-, -, -, hw⟩ | ⟨-, -, hw⟩ <;> rw [Common.regWrite, hw]
      · exact headerIndexOk_of_not h.1 (.inl rfl)
      · exact h
      · exact headerIndexOk_of_not h.1 (.inr (.inl rfl))
    all_goals exact h
  | _ => exact h

/-- Every step keeps DEC's part of the datapath invariant. -/
theorem decData_step {d d' : Dec} (hr : ReaderOk d) (ht : TablesAgree .dec d.core) (hi : HeaderIndexOk d) (h : d.Becomes d') :
    ReaderOk d' ∧ TablesAgree .dec d'.core ∧ HeaderIndexOk d' := by
  cases h with
  | illegal => exact ⟨hr, tablesAgree_of_not_valid rfl, headerIndexOk_of_not hi.1 (.inl rfl)⟩
  | runs i _ hbusy hdecode _ h => exact ⟨hr.micro ht h, ht.dec_micro h, hi.micro hbusy hdecode h⟩
  | host c h => exact ⟨hr, ht.host h, hi.host h⟩
  | reset =>
    exact ⟨readerOk_rewind rfl rfl rfl, tablesAgree_of_not_valid rfl, headerIndexOk_of_not (Nat.zero_le _) (.inl rfl)⟩

end Sys2Proof

open Sys2Proof Sys2Proof.Machine

/-- Settles O49: at reset no phase makes a table valid, the packer, reader and header loader are empty, and nothing is recorded. -/
theorem invariantsHoldAtReset : Obligations.InvariantsHoldAtReset :=
  have henc := (packerOk_and_tablesAgree_iff Enc.reset).mpr ⟨pendingOk_of_none rfl rfl, tablesAgree_of_not_valid rfl⟩
  ⟨⟨statusOk_reset .enc, statusOk_reset .dec⟩, henc.1, henc.2, readerOk_rewind rfl rfl rfl, tablesAgree_of_not_valid rfl,
    headerIndexOk_of_not (Nat.zero_le _) (.inl rfl)⟩

/-- Settles O51: each thing a step can do to a unit keeps its part of the invariant. -/
theorem stepKeepsDataInvariant : Obligations.StepKeepsDataInvariant := by
  rintro s t ⟨hpacker, htenc, hreader, htdec, hheader⟩ hstep
  obtain ⟨hbe, hbd⟩ := step_becomes hstep
  obtain ⟨hpending, -⟩ := (packerOk_and_tablesAgree_iff s.enc).mp ⟨hpacker, htenc⟩
  obtain ⟨hpending', htenc'⟩ := encData_step hpending htenc hbe
  obtain ⟨hpacker', -⟩ := (packerOk_and_tablesAgree_iff t.enc).mpr ⟨hpending', htenc'⟩
  exact ⟨hpacker', htenc', decData_step hreader htdec hheader hbd⟩
end

section
/-! SUPPORT. The micro-steps of the commands that take tokens or run in stages, case by case: out of phase, and by what stands at the
head of the input (41_frequency R182, R184; 43_bitpacker R234; 44_bitreader R251 to R253; 45_encoder_control R276, R278;
46_decoder_control R295, R298). -/

namespace Sys2Proof.Machine

/-! ### Out of phase -/

/-- An ENC command outside its phases raises SEQUENCE and changes nothing else (40_command_model R155). -/
theorem runEnc_outOfPhase (s : State) {ps : List Phase} (b : Body Enc) (h : s.enc.core.phase ∉ ps) :
    runEnc s (s.enc.inPhase ps b) = .next (withError .enc .sequence (s.enc.core.cur.extractLsb' 0 8) s) := by
  rw [Enc.inPhase_of_not_mem _ _ _ h, runEnc_raise]

/-- The same for DEC. -/
theorem runDec_outOfPhase (s : State) {ps : List Phase} (b : Body Dec) (h : s.dec.core.phase ∉ ps) :
    runDec s (s.dec.inPhase ps b) = .next (withError .dec .sequence (s.dec.core.cur.extractLsb' 0 8) s) := by
  rw [Dec.inPhase_of_not_mem _ _ _ h, runDec_raise]

/-- Inside E.PREPARE a stage out of phase raises SEQUENCE. -/
theorem runEnc_handOver_outOfPhase (s : State) {ps : List Phase} (b : Body Enc) (st : Nat) (h : s.enc.core.phase ∉ ps) :
    runEnc s ((s.enc.inPhase ps b).handOverEnc st) = .next (withError .enc .sequence (s.enc.core.cur.extractLsb' 0 8) s) := by
  rw [Enc.inPhase_of_not_mem _ _ _ h, Body.handOverEnc, runEnc_raise]

/-- Inside D.RUN a stage out of phase raises SEQUENCE. -/
theorem runDec_handOver_outOfPhase (s : State) {ps : List Phase} (b : Body Dec) (st : Nat) (h : s.dec.core.phase ∉ ps) :
    runDec s ((s.dec.inPhase ps b).handOverDec st) = .next (withError .dec .sequence (s.dec.core.cur.extractLsb' 0 8) s) := by
  rw [Dec.inPhase_of_not_mem _ _ _ h, Body.handOverDec, runDec_raise]

/-- The first micro-step of a command with stages is in STAGE 0. -/
theorem Common.stageNow_of_not_begun {c : Common} (h : c.begun = false) : c.stageNow = 0 := by
  simp [stageNow, h]

theorem Common.stageNow_of_begun {c : Common} (h : c.begun = true) : c.stageNow = c.stage := by
  simp [stageNow, h]

/-- A command that has begun goes on. -/
theorem Common.goOn_of_begun {c : Common} (h : c.begun = true) : c.goOn = c := by
  obtain ⟨⟩ := c
  cases h
  rfl

/-- A command that has begun, after a micro-step that does not end it. -/
theorem runEnc_more_of_begun (s : State) {e : Enc} (h : e.core.begun = true) :
    runEnc s (.more e) = .next { s with enc := e } := by
  rw [runEnc, Common.goOn_of_begun h]
  rfl

theorem runDec_more_of_begun (s : State) {d : Dec} (h : d.core.begun = true) :
    runDec s (.more d) = .next { s with dec := d } := by
  rw [runDec, Common.goOn_of_begun h]
  rfl

/-- An EOS emitted is not counted in OUT_BYTES (10_state R46). -/
theorem Common.emit_eos (c : Common) : c.emit .eos = { c with output := c.output ++ [.eos] } := by
  simp [emit, Token.bytes]

/-! ### E.PREPARE -/

theorem exec_ePrepare_of_stage_zero {s : State} (h : s.enc.core.stageNow = 0) :
    exec .ePrepare s = runEnc s (s.enc.buildTreeBody.handOverEnc 1) := by
  change runEnc s s.enc.prepareBody = _
  rw [Enc.prepareBody, h]
  rfl

theorem exec_ePrepare_of_stage_one {s : State} (h : s.enc.core.stageNow = 1) :
    exec .ePrepare s = runEnc s (s.enc.genCodesBody.handOverEnc 2) := by
  change runEnc s s.enc.prepareBody = _
  rw [Enc.prepareBody, h]
  rfl

theorem exec_ePrepare_of_stage_two {s : State} (h : s.enc.core.stageNow = 2) :
    exec .ePrepare s = runEnc s s.enc.emitHeaderBody := by
  change runEnc s s.enc.prepareBody = _
  rw [Enc.prepareBody, h]
  rfl

/-! ### D.RUN -/

theorem exec_dRun_of_stage_zero {s : State} (h : s.dec.core.stageNow = 0) :
    exec .dRun s = runDec s
      ((s.dec.inPhase [.ready] (s.dec.withCore { s.dec.core with stage := 0 }).loadHeaderBody).handOverDec 1) := by
  change runDec s s.dec.runBody = _
  rw [Dec.runBody, h]
  rfl

theorem exec_dRun_of_stage_one {s : State} (h : s.dec.core.stageNow = 1) :
    exec .dRun s = runDec s (s.dec.buildTreeBody.handOverDec 2) := by
  change runDec s s.dec.runBody = _
  rw [Dec.runBody, h]
  rfl

theorem exec_dRun_of_stage_two {s : State} (h : s.dec.core.stageNow = 2) :
    exec .dRun s = runDec s (s.dec.genCodesBody.handOverDec 3) := by
  change runDec s s.dec.runBody = _
  rw [Dec.runBody, h]
  rfl

theorem exec_dRun_of_stage_three {s : State} (h : s.dec.core.stageNow = 3) :
    exec .dRun s = runDec s (s.dec.checkTbcBody.handOverDec 4) := by
  change runDec s s.dec.runBody = _
  rw [Dec.runBody, h]
  rfl

theorem exec_dRun_of_stage_four {s : State} (h : s.dec.core.stageNow = 4) : exec .dRun s = exec .dDecodeStream s := by
  change runDec s s.dec.runBody = _
  rw [Dec.runBody, h]
  rfl

/-! ### The stream commands of ENC -/

theorem exec_eAccumStream_of_counting {s : State} (h : s.enc.core.phase = .counting) :
    exec .eAccumStream s = runEnc s s.enc.accumStreamBody := by
  change runEnc s (s.enc.inPhase _ _) = _
  rw [Enc.inPhase_of_mem _ _ _ (List.mem_singleton.mpr h)]

theorem Enc.accumStreamBody_of_nil {e : Enc} (h : e.core.input = []) : e.accumStreamBody = .hold := by
  rw [accumStreamBody, e.core.peek_zero_nil h]

theorem Enc.accumStreamBody_of_eos {e : Enc} {rest : List Token} (h : e.core.input = .eos :: rest) :
    e.accumStreamBody = .fin (e.withCore { e.core with input := rest }) .counting := by
  rw [accumStreamBody, e.core.peek_zero_cons _ _ h, e.core.consume_eos _ h]

theorem Enc.accumStreamBody_of_byte {e : Enc} {b : Byte} {rest : List Token} (h : e.core.input = .byte b :: rest) :
    e.accumStreamBody = (e.withCore { e.core with input := rest, inBytes := e.core.inBytes + 1 }).countOne b .more := by
  rw [accumStreamBody, e.core.peek_zero_cons _ _ h, e.core.consume_byte _ _ h]

theorem Enc.packStreamBody_of_nil {e : Enc} (h : e.core.input = []) : e.packStreamBody = .hold := by
  rw [packStreamBody, e.core.peek_zero_nil h]

theorem Enc.packStreamBody_of_eos {e : Enc} {rest : List Token} (h : e.core.input = .eos :: rest) :
    e.packStreamBody = .fin (e.withCore { e.core with input := rest }) .packing := by
  rw [packStreamBody, e.core.peek_zero_cons _ _ h, e.core.consume_eos _ h]

theorem Enc.packStreamBody_of_byte {e : Enc} {b : Byte} {rest : List Token} (h : e.core.input = .byte b :: rest) :
    e.packStreamBody =
      .more ((e.withCore { e.core with input := rest, inBytes := e.core.inBytes + 1 }).append e.core.code[b.toNat]) := by
  rw [packStreamBody, e.core.peek_zero_cons _ _ h, e.core.consume_byte _ _ h]
  rfl

/-! ### DRAIN -/

theorem Common.drainBody_of_nil {c : Common} (h : c.input = []) : c.drainBody = .hold := by
  rw [drainBody, c.peek_zero_nil h]

theorem Common.drainBody_of_eos {c : Common} {rest : List Token} (h : c.input = .eos :: rest) :
    c.drainBody = .fin { c with input := rest } c.phase := by
  rw [drainBody, c.peek_zero_cons _ _ h, c.consume_eos _ h]

theorem Common.drainBody_of_byte {c : Common} {b : Byte} {rest : List Token} (h : c.input = .byte b :: rest) :
    c.drainBody = .more { c with input := rest, inBytes := c.inBytes + 1 } := by
  rw [drainBody, c.peek_zero_cons _ _ h, c.consume_byte _ _ h]

/-! ### A header byte -/

/-- A header byte in range changes its byte of its symbol's count, and nothing else (41_frequency R184). -/
theorem Common.loadHeaderByte_of_lt (c : Common) (idx : Nat) (h : idx < 1024) (b : Byte) :
    c.loadHeaderByte idx b = { c with count := c.count.set (idx / 4) (setCountByte c.count[idx / 4] (idx % 4) b) } := by
  have hidx : (BitVec.ofNat 8 (idx / 4)).toNat = idx / 4 := by rw [BitVec.toNat_ofNat, Nat.mod_eq_of_lt (by omega)]
  simp only [loadHeaderByte, setCount, countAt, hidx]

/-! ### The walk -/

/-- What a walk command comes to with no bit to take: the end of the payload, a code cut short, or a token missing. -/
def WalkEnds (s : State) (o : Host.Outcome State Fault Refusal) : Prop :=
  (∀ rest, s.dec.brCnt = 0 → s.dec.core.input = .eos :: rest → s.dec.walkNode = 510 →
    o = .next { s with dec := { s.dec with
      eop := true
      core := { s.dec.core with
        input := rest, output := s.dec.core.output ++ [.eos], phase := .done, busy := false, done := true } } }) ∧
  (∀ rest, s.dec.brCnt = 0 → s.dec.core.input = .eos :: rest → s.dec.walkNode ≠ 510 →
    o = .next (withError .dec .incompleteCode (s.dec.core.cur.extractLsb' 0 8)
      (s.setCore .dec { s.dec.core with input := rest }))) ∧
  (s.dec.brCnt = 0 → s.dec.core.input = [] → o = .next s) ∧
  (∀ v, s.dec.brCnt = 0 → s.dec.core.input = [.byte v] → o = .next s)

/-- A body that passes on what WalkStep finds with no bit to take. -/
theorem runDec_walkEnds (s : State) (b : Body Dec) (hended : ∀ d, s.dec.walkStep = .ended d → b = .fin d .done)
    (hcut : ∀ d, s.dec.walkStep = .cut d → b = .raised d) (hhold : s.dec.walkStep = .hold → b = .hold) :
    WalkEnds s (runDec s b) := by
  refine ⟨fun rest hcnt hinput hroot => ?_, fun rest hcnt hinput hroot => ?_, fun hcnt hinput => ?_, fun v hcnt hinput => ?_⟩
  · rw [hended _ (Dec.walkStep_of_end hcnt hinput hroot), s.dec.core.consume_eos _ hinput, runDec, Dec.endPayload,
      Common.emit_eos]
    rfl
  · rw [hcut _ (Dec.walkStep_of_cut hcnt hinput hroot), s.dec.core.consume_eos _ hinput]
    exact runDec_withCore_raise s _ .incompleteCode
  · rw [hhold (Dec.walkStep_of_nil hcnt hinput)]
    rfl
  · rw [hhold (Dec.walkStep_of_lone_byte hcnt hinput)]
    rfl

/-- D.DECODE_STREAM in DECODING. -/
theorem exec_dDecodeStream_of_decoding {s : State} (h : s.dec.core.phase = .decoding) :
    exec .dDecodeStream s = runDec s s.dec.decodeStreamBody := by
  change runDec s (s.dec.inPhase _ _) = _
  rw [Dec.inPhase_of_mem _ _ _ (List.mem_singleton.mpr h)]

/-- With a bit to take, D.DECODE_STREAM takes it and goes on, at a leaf and inside the tree. -/
theorem Dec.decodeStreamBody_of_hasBit {d d' : Dec} (h : HasBit d d') : d.decodeStreamBody = .more (afterBit d') := by
  rw [decodeStreamBody, walkStep_of_hasBit h]
  by_cases hleaf : (childTaken d').toNat ≤ 255
  · rw [if_pos hleaf]
  · rw [if_neg hleaf]

/-- The other cases of D.DECODE_STREAM. -/
theorem runDec_decodeStream_walkEnds (s : State) : WalkEnds s (runDec s s.dec.decodeStreamBody) :=
  runDec_walkEnds s s.dec.decodeStreamBody (fun d h => by rw [Dec.decodeStreamBody, h])
    (fun d h => by rw [Dec.decodeStreamBody, h]) fun h => by rw [Dec.decodeStreamBody, h]

end Sys2Proof.Machine

open Sys2Proof Sys2Proof.Machine

/-- Settles O8: every phase requirement is checked before anything else; the commands with stages check their first one's. -/
theorem sequenceOutsideItsPhases : Obligations.SequenceOutsideItsPhases := by
  intro i s hrequires hphase hbegun
  cases i
  case eNop | eClear | eDrain | dNop | dClear | dDrain => cases hrequires
  case ePrepare =>
    rw [exec_ePrepare_of_stage_zero (Common.stageNow_of_not_begun hbegun)]
    exact runEnc_handOver_outOfPhase s _ 1 hphase
  case dRun =>
    rw [exec_dRun_of_stage_zero (Common.stageNow_of_not_begun hbegun)]
    exact runDec_handOver_outOfPhase s _ 1 hphase
  case eAccum | eAccumStream | eBuildTree | eGenCodes | eEmitHeader | ePack | ePackStream | eFinish =>
    exact runEnc_outOfPhase s _ hphase
  case dLoadHeader | dBuildTree | dGenCodes | dCheckTbc | dWalk | dDecodeStream => exact runDec_outOfPhase s _ hphase

/-- Settles O17: the micro-step splits on PHASE, on the oldest token and on the count being at its maximum. -/
theorem accumStreamCountsOneToken : Obligations.AccumStreamCountsOneToken := by
  refine ⟨onlyWord_of_find? .enc ⟨0x03, .f0, fun _ => .eAccumStream⟩ rfl rfl, fun s => ⟨
    fun hphase => runEnc_outOfPhase s _ (mt List.mem_singleton.mp hphase), fun hphase hinput => ?hold,
    fun rest hphase hinput => ?eos, fun b rest hphase hinput hmax => ⟨true, ?byte⟩, fun b rest hphase hinput hmax => ?overflow⟩⟩
  case hold =>
    rw [exec_eAccumStream_of_counting hphase, Enc.accumStreamBody_of_nil hinput]
    rfl
  case eos =>
    rw [exec_eAccumStream_of_counting hphase, Enc.accumStreamBody_of_eos hinput, runEnc, Common.complete_of_phase]
    · rfl
    · exact hphase
  case byte =>
    rw [exec_eAccumStream_of_counting hphase, Enc.accumStreamBody_of_byte hinput,
      Enc.countOne_of_ne_max (s.enc.withCore { s.enc.core with input := rest, inBytes := s.enc.core.inBytes + 1 }) _ _ hmax]
    rfl
  case overflow =>
    rw [exec_eAccumStream_of_counting hphase, Enc.accumStreamBody_of_byte hinput,
      Enc.countOne_of_eq_max (s.enc.withCore { s.enc.core with input := rest, inBytes := s.enc.core.inBytes + 1 }) _ _ hmax]
    exact runEnc_raise (s.setCore .enc { s.enc.core with input := rest, inBytes := s.enc.core.inBytes + 1 }) .countOverflow

/-- Settles O24: the micro-step splits on PHASE and on the oldest token. -/
theorem packStreamAppendsOneToken : Obligations.PackStreamAppendsOneToken := by
  refine ⟨onlyWord_of_find? .enc ⟨0x08, .f0, fun _ => .ePackStream⟩ rfl rfl, fun s => ⟨fun hsent hpacking =>
    runEnc_inPhase_packer_raise s _ hsent hpacking, fun hphase => ?_⟩⟩
  have hexec : exec .ePackStream s = runEnc s s.enc.packStreamBody := runEnc_inPhase_packer s _ hphase
  rw [hexec]
  refine ⟨fun hinput => ?hold, fun rest hinput => ?eos, fun b rest hinput => ⟨true, ?byte⟩⟩
  case hold => rw [Enc.packStreamBody_of_nil hinput]; rfl
  case eos => rw [Enc.packStreamBody_of_eos hinput]; rfl
  case byte => rw [Enc.packStreamBody_of_byte hinput]; rfl

/-- Settles O26: E.PREPARE by the stage it is in. -/
theorem prepareRunsThreeStages : Obligations.PrepareRunsThreeStages := by
  refine ⟨onlyWord_of_find? .enc ⟨0x0A, .f0, fun _ => .ePrepare⟩ rfl rfl, fun s => ⟨fun hbegun hphase => ?outOfPhase,
    fun hbegun hphase => ?tree, fun hbegun hstage hphase => ?codes, fun hbegun hstage hphase => ?header⟩⟩
  case outOfPhase =>
    rw [exec_ePrepare_of_stage_zero (Common.stageNow_of_not_begun hbegun)]
    exact runEnc_handOver_outOfPhase s _ 1 (mt List.mem_singleton.mp hphase)
  case tree =>
    rw [exec_ePrepare_of_stage_zero (Common.stageNow_of_not_begun hbegun), Enc.buildTreeBody,
      Enc.inPhase_of_mem _ _ _ (List.mem_singleton.mpr hphase)]
    rfl
  case codes =>
    rw [exec_ePrepare_of_stage_one ((Common.stageNow_of_begun hbegun).trans hstage), Enc.genCodesBody,
      Enc.inPhase_of_mem _ _ _ (List.mem_singleton.mpr hphase)]
    rfl
  case header =>
    have hends : exec .ePrepare s = .next (s.setCore .enc
        ((s.enc.core.emitBytes (headerBytes s.enc.core.count ++ [s.enc.core.calcTbc.setWidth 8])).complete .headerSent)) := by
      rw [exec_ePrepare_of_stage_two ((Common.stageNow_of_begun hbegun).trans hstage), Enc.emitHeaderBody,
        Enc.inPhase_of_mem _ _ _ (List.mem_singleton.mpr hphase)]
      rfl
    rw [Common.emitBytes_header] at hends
    exact hends

/-- Settles O27: DRAIN splits on the oldest token alone. -/
theorem drainDiscardsOneToken : Obligations.DrainDiscardsOneToken := by
  refine ⟨onlyWord_of_find? .enc ⟨0x0E, .f0, fun _ => .eDrain⟩ rfl rfl,
    onlyWord_of_find? .dec ⟨0x0E, .f0, fun _ => .dDrain⟩ rfl rfl, fun s => ?_⟩
  have henc : exec .eDrain s = runEnc s (s.enc.core.drainBody.lift s.enc.withCore) := rfl
  have hdec : exec .dDrain s = runDec s (s.dec.core.drainBody.lift s.dec.withCore) := rfl
  rw [henc, hdec]
  refine ⟨fun hinput => ?_, fun rest hinput => ?_, fun b rest hinput => ⟨true, ?_⟩, fun hinput => ?_, fun rest hinput => ?_,
    fun b rest hinput => ⟨true, ?_⟩⟩
  · rw [Common.drainBody_of_nil hinput]; rfl
  · rw [Common.drainBody_of_eos hinput]; rfl
  · rw [Common.drainBody_of_byte hinput]; rfl
  · rw [Common.drainBody_of_nil hinput]; rfl
  · rw [Common.drainBody_of_eos hinput]; rfl
  · rw [Common.drainBody_of_byte hinput]; rfl

/-- Settles O18: the header loader by its first micro-step and by the oldest token. -/
theorem loadHeaderTakesOneByte : Obligations.LoadHeaderTakesOneByte := by
  refine ⟨onlyWord_of_find? .dec ⟨0x02, .f0, fun _ => .dLoadHeader⟩ rfl rfl, fun s => ⟨
    fun hphase => runDec_outOfPhase s _ (mt List.mem_singleton.mp hphase), ?_⟩⟩
  have hexec (hphase : s.dec.core.phase = .ready) : exec .dLoadHeader s = runDec s s.dec.loadHeaderBody := by
    change runDec s (s.dec.inPhase _ _) = _
    rw [Dec.inPhase_of_mem _ _ _ (List.mem_singleton.mpr hphase)]
  refine ⟨fun hphase hbegun => ?start, fun hphase hbegun hinput => ?hold, fun rest hphase hbegun hinput => ?eos,
    fun b rest hidx hphase hbegun hinput => ?byte⟩
  case start => rw [hexec hphase, Dec.loadHeaderBody_of_not_begun hbegun]; rfl
  case hold => rw [hexec hphase, Dec.loadHeaderBody_of_nil hbegun hinput]; rfl
  case eos =>
    rw [hexec hphase, Dec.loadHeaderBody_of_eos hbegun hinput, s.dec.core.consume_eos _ hinput]
    exact runDec_withCore_raise s _ .truncatedHeader
  case byte =>
    by_cases hlast : s.dec.hdrIdx = 1023
    · rw [hexec hphase, Dec.loadHeaderBody_of_last_byte hbegun hinput (by omega), s.dec.core.consume_byte _ _ hinput,
        Common.loadHeaderByte_of_lt _ _ hidx]
      simp only [hlast, if_true]
      rfl
    · rw [hexec hphase, Dec.loadHeaderBody_of_byte hbegun hinput (by omega), s.dec.core.consume_byte _ _ hinput,
        Common.loadHeaderByte_of_lt _ _ hidx]
      refine (runDec_more_of_begun s ?_).trans ?_
      · exact hbegun
      simp only [hlast, if_false, ← hphase]
      rfl

/-- Settles O29: WalkStep by the bit to take, and D.WALK completes at a leaf. -/
theorem walkDecodesOneSymbol : Obligations.WalkDecodesOneSymbol := by
  refine ⟨onlyWord_of_find? .dec ⟨0x07, .f0, fun _ => .dWalk⟩ rfl rfl, fun s => ⟨
    fun hphase => runDec_outOfPhase s _ (mt List.mem_singleton.mp hphase), fun hphase => ?_⟩⟩
  have hexec : exec .dWalk s = runDec s s.dec.walkBody := by
    change runDec s (s.dec.inPhase _ _) = _
    rw [Dec.inPhase_of_mem _ _ _ (List.mem_singleton.mpr hphase)]
  rw [hexec]
  refine ⟨fun d hbit hleaf => ?_, fun d hbit hinner => ⟨true, ?_⟩, runDec_walkEnds s _ (fun d h => by rw [Dec.walkBody, h])
    (fun d h => by rw [Dec.walkBody, h]) fun h => by rw [Dec.walkBody, h]⟩
  · rw [Dec.walkBody, Dec.walkStep_of_hasBit hbit, if_pos hleaf]
    rfl
  · rw [Dec.walkBody, Dec.walkStep_of_hasBit hbit, if_neg (Nat.not_le.mpr hinner)]
    rfl

/-- Settles O30: the same WalkStep, and D.DECODE_STREAM goes on after a leaf too. -/
theorem decodeStreamGoesOnAfterASymbol : Obligations.DecodeStreamGoesOnAfterASymbol := by
  refine ⟨onlyWord_of_find? .dec ⟨0x08, .f0, fun _ => .dDecodeStream⟩ rfl rfl, fun s => ⟨
    fun hphase => runDec_outOfPhase s _ (mt List.mem_singleton.mp hphase), fun hphase => ?_⟩⟩
  rw [exec_dDecodeStream_of_decoding hphase]
  refine ⟨fun d hbit => ⟨true, ?_⟩, runDec_decodeStream_walkEnds s⟩
  rw [Dec.decodeStreamBody_of_hasBit hbit]
  rfl

/-- Settles O31: D.RUN by the stage it is in, each stage's sub-command by what it finds. -/
theorem runHandsOverAndCompletes : Obligations.RunHandsOverAndCompletes := by
  refine ⟨onlyWord_of_find? .dec ⟨0x0F, .f0, fun _ => .dRun⟩ rfl rfl, fun s => ?_⟩
  have hstage (hbegun : s.dec.core.begun = true) {k : Nat} (h : s.dec.core.stage = k) : s.dec.core.stageNow = k :=
    (Common.stageNow_of_begun hbegun).trans h
  have hload (hphase : s.dec.core.phase = .ready) (hzero : s.dec.core.stageNow = 0) : exec .dRun s =
      runDec s ((s.dec.withCore { s.dec.core with stage := 0 }).loadHeaderBody.handOverDec 1) := by
    rw [exec_dRun_of_stage_zero hzero, Dec.inPhase_of_mem _ _ _ (List.mem_singleton.mpr hphase)]
  have hself (hzero : s.dec.core.stage = 0) : s.dec.withCore { s.dec.core with stage := 0 } = s.dec := by
    rw [← hzero]
    rfl
  refine ⟨fun hbegun hphase => ?outOfPhase, fun hbegun hphase => ?start,
    fun b rest hidx hbegun hzero hphase hinput => ?headerByte, fun rest hbegun hzero hphase hinput => ?headerEos,
    fun hbegun hzero hphase hinput => ?headerHold, fun hbegun hone hphase => ?tree, fun hbegun htwo hphase => ?codes,
    fun v rest hbegun hthree hphase hinput heq => ?tbcEqual, fun v rest hbegun hthree hphase hinput hne => ?tbcDiffers,
    fun rest hbegun hthree hphase hinput => ?tbcEos, fun hbegun hthree hphase hinput => ?tbcHold,
    fun hbegun hfour => exec_dRun_of_stage_four (hstage hbegun hfour),
    fun rest hbegun hfour hphase hcnt hinput hroot => ?ended⟩
  case outOfPhase =>
    rw [exec_dRun_of_stage_zero (Common.stageNow_of_not_begun hbegun)]
    exact runDec_handOver_outOfPhase s _ 1 (mt List.mem_singleton.mp hphase)
  case start =>
    rw [hload hphase (Common.stageNow_of_not_begun hbegun),
      Dec.loadHeaderBody_of_not_begun (d := s.dec.withCore { s.dec.core with stage := 0 }) hbegun]
    rfl
  case headerByte =>
    rw [hload hphase (hstage hbegun hzero), hself hzero]
    by_cases hlast : s.dec.hdrIdx = 1023
    · rw [Dec.loadHeaderBody_of_last_byte hbegun hinput (by omega), s.dec.core.consume_byte _ _ hinput,
        Common.loadHeaderByte_of_lt _ _ hidx, Body.handOverDec]
      refine (runDec_more_of_begun s ?_).trans ?_
      · exact hbegun
      simp only [hlast, if_true]
      rfl
    · rw [Dec.loadHeaderBody_of_byte hbegun hinput (by omega), s.dec.core.consume_byte _ _ hinput,
        Common.loadHeaderByte_of_lt _ _ hidx, Body.handOverDec]
      refine (runDec_more_of_begun s ?_).trans ?_
      · exact hbegun
      simp only [hlast, if_false, ← hphase, ← hzero]
      rfl
  case headerEos =>
    rw [hload hphase (hstage hbegun hzero), hself hzero, Dec.loadHeaderBody_of_eos hbegun hinput,
      s.dec.core.consume_eos _ hinput, Body.handOverDec]
    exact runDec_withCore_raise s _ .truncatedHeader
  case headerHold =>
    rw [hload hphase (hstage hbegun hzero), hself hzero, Dec.loadHeaderBody_of_nil hbegun hinput]
    rfl
  case tree =>
    rw [exec_dRun_of_stage_one (hstage hbegun hone), Dec.buildTreeBody,
      Dec.inPhase_of_mem _ _ _ (List.mem_singleton.mpr hphase), Body.handOverDec]
    exact runDec_more_of_begun s hbegun
  case codes =>
    rw [exec_dRun_of_stage_two (hstage hbegun htwo), Dec.genCodesBody,
      Dec.inPhase_of_mem _ _ _ (List.mem_singleton.mpr hphase), Body.handOverDec]
    exact runDec_more_of_begun s hbegun
  case tbcEqual =>
    rw [exec_dRun_of_stage_three (hstage hbegun hthree), s.dec.checkTbcBody_of_byte_eq rest v hphase hinput heq,
      Body.handOverDec]
    exact runDec_more_of_begun s hbegun
  case tbcDiffers =>
    rw [exec_dRun_of_stage_three (hstage hbegun hthree), s.dec.checkTbcBody_of_byte_ne rest v hphase hinput hne,
      Body.handOverDec]
    exact runDec_withCore_raise s _ .tbcMismatch
  case tbcEos =>
    rw [exec_dRun_of_stage_three (hstage hbegun hthree), s.dec.checkTbcBody_of_eos rest hphase hinput, Body.handOverDec]
    exact runDec_withCore_raise s _ .missingTbc
  case tbcHold =>
    rw [exec_dRun_of_stage_three (hstage hbegun hthree), s.dec.checkTbcBody_of_nil hphase hinput]
    rfl
  case ended =>
    rw [exec_dRun_of_stage_four (hstage hbegun hfour), exec_dDecodeStream_of_decoding hphase]
    exact (runDec_decodeStream_walkEnds s).1 rest hcnt hinput hroot
end

section
/-! SUPPORT. What a step does when a unit or the host has the move (40_command_model R150, R156, R157). -/

namespace Sys2Proof.Machine

/-- A unit's common part does not depend on the agenda. -/
@[simp] theorem State.core_with_agenda (s : State) (a : List Move) (u : UnitId) :
    ({ s with agenda := a } : State).core u = s.core u := by
  cases u <;> rfl

/-- Nor on the turn. -/
@[simp] theorem State.core_with_turn (s : State) (v u : UnitId) : ({ s with turn := v } : State).core u = s.core u := by
  cases u <;> rfl

theorem step_of_agenda_unit {s : State} {u : UnitId} {rest : List Move} (h : s.agenda = .unit u :: rest) :
    step s = unitStep u { s with agenda := rest } := by
  rw [step, takeTurn_cons _ _ _ h]

theorem step_of_agenda_host {s : State} {a : HostMove} {rest : List Move} (h : s.agenda = .host a :: rest) :
    step s = hostMove a { s with agenda := rest } := by
  rw [step, takeTurn_cons _ _ _ h]

theorem step_of_turn {s : State} {u : UnitId} (h : s.agenda = []) (hu : s.turn = u) :
    step s = unitStep u { s with turn := otherUnit u } := by
  rw [step, takeTurn_nil _ h, hu]

theorem unitStep_of_idle {u : UnitId} {s : State} (h : (s.core u).busy = false) : unitStep u s = .next s := by
  rw [unitStep, fetch_idle u s h]

theorem unitStep_of_run {u : UnitId} {s : State} {i : Instr} (h : (s.core u).busy = true)
    (hi : decode u (s.core u).cur = .ok i) : unitStep u s = exec i s := by
  rw [unitStep, fetch_run u s i h hi]

/-- An accepted illegal word: the error entry of ILLEGAL_CMD (40_command_model R150). -/
theorem unitStep_of_illegal {u : UnitId} {s : State} {why : DecodeError} (h : (s.core u).busy = true)
    (hi : decode u (s.core u).cur = .illegal why) :
    unitStep u s = .next (withError u .illegalCmd ((s.core u).cur.extractLsb' 0 8) s) := by
  rw [unitStep, fetch_illegal u s why h hi]
  exact congrArg Host.Outcome.next (setCore_errorEntry s u .illegalCmd _)

end Sys2Proof.Machine

open Sys2Proof Sys2Proof.Machine

/-- Settles O5: the move is the agenda's head or the turn's; then the unit is idle or runs its decoded word. -/
theorem stepRunsDecodedCommand : Obligations.StepRunsDecodedCommand := by
  refine ⟨fun s u => ⟨fun i hbusy hi => ⟨fun rest hagenda => ?_, fun hagenda hturn => ?_⟩,
    fun hidle => ⟨fun rest hagenda => ?_, fun hagenda hturn => ?_⟩⟩, fun s a rest hagenda => step_of_agenda_host hagenda⟩
  · rw [step_of_agenda_unit hagenda, unitStep_of_run (by simpa using hbusy) (by simpa using hi)]
  · rw [step_of_turn hagenda hturn, unitStep_of_run (by simpa using hbusy) (by simpa using hi)]
  · rw [step_of_agenda_unit hagenda, unitStep_of_idle (by simpa using hidle)]
  · rw [step_of_turn hagenda hturn, unitStep_of_idle (by simpa using hidle)]

/-- Settles O6: an illegal word is fetched as such, whoever gave the unit its move. -/
theorem illegalWordRaises : Obligations.IllegalWordRaises := by
  refine fun s u why hbusy hi => ⟨fun rest hagenda => ?_, fun hagenda hturn => ?_⟩
  · rw [step_of_agenda_unit hagenda, unitStep_of_illegal (why := why) (by simpa using hbusy) (by simpa using hi),
      State.core_with_agenda]
  · rw [step_of_turn hagenda hturn, unitStep_of_illegal (why := why) (by simpa using hbusy) (by simpa using hi),
      State.core_with_turn]

/-- Settles O10: error entry by whether ERR was 0, and the cause table read off. -/
theorem errorEntryRecordsTheFirstCause : Obligations.ErrorEntryRecordsTheFirstCause :=
  ⟨Common.errorEntry_eq, rfl⟩

/-- Settles O52: the reset state's fields, and the reset event. -/
theorem resetValues : Obligations.ResetValues := by
  refine ⟨fun u => ?_, rfl, rfl, rfl, rfl, rfl, rfl, rfl, rfl, rfl, fun s => rfl⟩
  rw [State.reset_core]
  decide
end

section
/-! SUPPORT. Which register stands at an offset, and what a read of it answers: what it shows, or a free value while the unit is
busy or the register's window is not valid (10_state R32, 20_memory R93, R94). -/

namespace Sys2Proof.Machine

/-! ### Offsets -/

/-- COUNT_s stands at `0x400 + 4 s` (10_state R32). -/
theorem regAt_count_range {off : BitVec 12} (hlo : 0x400 ≤ off.toNat) (hhi : off.toNat < 0x800) :
    regAt off = .count (BitVec.ofNat 8 ((off.toNat - 0x400) / 4)) := by
  unfold regAt
  split
  case h_31 => exact if_pos ⟨hlo, hhi⟩
  all_goals omega

theorem regAt_count {x : Nat} (h : x < 256) : regAt (BitVec.ofNat 12 (0x400 + 4 * x)) = .count (BitVec.ofNat 8 x) := by
  have hoff : (BitVec.ofNat 12 (0x400 + 4 * x)).toNat = 0x400 + 4 * x := by rw [BitVec.toNat_ofNat]; omega
  rw [regAt_count_range (by omega) (by omega), hoff]
  congr 2
  omega

/-- The reserved offsets (10_state R57). -/
theorem regAt_reserved {off : BitVec 12}
    (h : off.toNat ∈ [0x01C, 0x03C, 0x048, 0x04C] ∨ (0x088 ≤ off.toNat ∧ off.toNat ≤ 0x3FC) ∨ 0x800 ≤ off.toNat) :
    regAt off = .reserved := by
  simp only [List.mem_cons, List.not_mem_nil, or_false] at h
  have hcount : ¬(0x400 ≤ off.toNat ∧ off.toNat < 0x800) := by omega
  unfold regAt
  split
  case h_31 => exact if_neg hcount
  all_goals omega

/-- CT_PATi stands at `0x058 + 4 i` (10_state R52). -/
theorem regAt_ctPat {i : Nat} (h : i < 8) : regAt (BitVec.ofNat 12 (0x058 + 4 * i)) = .ctPat i :=
  (by decide : ∀ i : Fin 8, regAt (BitVec.ofNat 12 (0x058 + 4 * i.val)) = .ctPat i) ⟨i, h⟩

/-- A property of the registers at listed offsets. -/
theorem regAt_of_mem {P : Reg → Prop} {off : BitVec 12} {l : List Nat} (hoff : off.toNat ∈ l)
    (h : ∀ n ∈ l, P (regAt (BitVec.ofNat 12 n))) : P (regAt off) := by
  have := h _ hoff
  rwa [BitVec.ofNat_toNat, BitVec.setWidth_eq] at this

/-! ### Reads -/

/-- STATUS.EOP of a unit; ENC has none (10_state R37). -/
def State.eopOf (s : State) : UnitId → Bool
  | .enc => false
  | .dec => s.dec.eop

/-- The BITSTATE word of a unit (10_state R47, R48). -/
def State.bitstateOf (s : State) : UnitId → Word
  | .enc => s.enc.bitstate
  | .dec => s.dec.bitstate

/-- PACKED_BITS or CONSUMED_BITS (10_state R49). -/
def State.bitsOf (s : State) : UnitId → Counter
  | .enc => s.enc.packedBits
  | .dec => s.dec.consumedBits

/-- What register `r` of unit `u` holds, busy or not. -/
def State.regShown (s : State) (u : UnitId) (r : Reg) : RegValue :=
  regIdle u (s.core u) (s.eopOf u) (s.bitstateOf u) (s.bitsOf u) r

theorem regValue_of_shown {u : UnitId} {s : State} {r : Reg} (h : (s.core u).busy = false ∨ r.exactWhileBusy = true) :
    regValue u s r = s.regShown u r := by
  have hshown : ((s.core u).busy && !r.exactWhileBusy) = false := by rcases h with h | h <;> simp [h]
  unfold regValue
  rw [hshown]
  cases u <;> rfl

theorem regValue_of_busy {u : UnitId} {s : State} {r : Reg} (hbusy : (s.core u).busy = true)
    (hr : r.exactWhileBusy = false) : regValue u s r = .unspecified := by
  unfold regValue
  rw [hbusy, hr]
  rfl

theorem reads_of_regValue {u : UnitId} {off : BitVec 12} {s : State} {v : Word} (hoff : off.toNat % 4 = 0)
    (h : regValue u s (regAt off) = .exact v) : Reads u off s v := by
  simp only [Reads, hostMove, hostRead, legalAccess, hoff, and_self, decide_true, if_true, h]
  rfl

theorem readsDraw_of_regValue {u : UnitId} {off : BitVec 12} {s : State} (hoff : off.toNat % 4 = 0)
    (h : regValue u s (regAt off) = .unspecified) : ReadsDraw u off s := by
  simp only [ReadsDraw, hostMove, hostRead, legalAccess, hoff, and_self, decide_true, if_true, h]
  rfl

/-- A register that is read exactly while busy, or a unit that is not busy: the read answers what the register shows. -/
theorem reads_of_shown {u : UnitId} {off : BitVec 12} {s : State} {v : Word} (r : Reg) (hreg : regAt off = r)
    (hoff : off.toNat % 4 = 0) (h : (s.core u).busy = false ∨ r.exactWhileBusy = true) (hv : s.regShown u r = .exact v) :
    Reads u off s v :=
  reads_of_regValue hoff (by rw [hreg, regValue_of_shown h, hv])

end Sys2Proof.Machine
end

section
/-! SUPPORT. The fields of the words a host reads (10_state R37, R41 to R43, R47, R48, R54). The widths of the parts are kept as
written while the fields are taken, so that each part is cut out of the word whole. -/

namespace Sys2Proof.Machine

theorem statusWord_fields (p : BitVec 4) (eop err done busy : Bool) :
    let w := (0 : BitVec 20) ++ p ++ (0 : BitVec 4) ++ bit eop ++ bit err ++ bit done ++ bit busy
    w.getLsbD 0 = busy ∧ w.getLsbD 1 = done ∧ w.getLsbD 2 = err ∧ w.getLsbD 3 = eop ∧ w.extractLsb' 4 4 = 0 ∧
    w.extractLsb' 8 4 = p ∧ w.extractLsb' 12 20 = 0 := by
  simp [-Nat.reduceAdd, BitVec.extractLsb'_append_eq_of_add_le, BitVec.extractLsb'_append_eq_of_le, BitVec.getElem_append, bit]

theorem errCauseWord_fields (kind : BitVec 4) (opc code : Byte) :
    let w := (0 : BitVec 12) ++ kind ++ opc ++ code
    w.extractLsb' 0 8 = code ∧ w.extractLsb' 8 8 = opc ∧ w.extractLsb' 16 4 = kind ∧ w.extractLsb' 20 12 = 0 := by
  simp [-Nat.reduceAdd, BitVec.extractLsb'_append_eq_of_add_le, BitVec.extractLsb'_append_eq_of_le]

theorem irqEnWord_fields (errIe doneIe : Bool) :
    let w := (0 : BitVec 30) ++ bit errIe ++ bit doneIe
    w.getLsbD 0 = doneIe ∧ w.getLsbD 1 = errIe ∧ w.extractLsb' 2 30 = 0 := by
  simp [-Nat.reduceAdd, BitVec.extractLsb'_append_eq_of_le, BitVec.getElem_append, bit]

theorem tbcWord_fields (valid : Bool) (aux : Byte) (val : BitVec 4) :
    let w := (0 : BitVec 15) ++ bit valid ++ aux ++ (0 : BitVec 4) ++ val
    w.extractLsb' 0 4 = val ∧ w.extractLsb' 4 4 = 0 ∧ w.extractLsb' 8 8 = aux ∧ w.getLsbD 16 = valid ∧
    w.extractLsb' 17 15 = 0 := by
  simp [-Nat.reduceAdd, BitVec.extractLsb'_append_eq_of_add_le, BitVec.extractLsb'_append_eq_of_le, BitVec.getElem_append, bit]

theorem encBitstate_fields (pend : BitVec 4) (acc : Byte) :
    let w := (0 : BitVec 20) ++ pend ++ acc
    w.extractLsb' 0 8 = acc ∧ w.extractLsb' 8 4 = pend ∧ w.extractLsb' 12 20 = 0 := by
  simp [-Nat.reduceAdd, BitVec.extractLsb'_append_eq_of_add_le, BitVec.extractLsb'_append_eq_of_le]

theorem decBitstate_fields (node : NodeIdx) (last : Bool) (cnt : BitVec 4) (buf : Byte) :
    let w := (0 : BitVec 7) ++ node ++ (0 : BitVec 3) ++ bit last ++ cnt ++ buf
    w.extractLsb' 0 8 = buf ∧ w.extractLsb' 8 4 = cnt ∧ w.getLsbD 12 = last ∧ w.extractLsb' 13 3 = 0 ∧
    w.extractLsb' 16 9 = node ∧ w.extractLsb' 25 7 = 0 := by
  simp [-Nat.reduceAdd, BitVec.extractLsb'_append_eq_of_add_le, BitVec.extractLsb'_append_eq_of_le, BitVec.getElem_append, bit]

theorem nodeInfoWord_fields (l r : NodeIdx) :
    let w := (1 : BitVec 1) ++ (0 : BitVec 13) ++ r ++ l
    w.extractLsb' 0 9 = l ∧ w.extractLsb' 9 9 = r ∧ w.extractLsb' 18 13 = 0 ∧ w.getLsbD 31 = true := by
  simp [-Nat.reduceAdd, BitVec.extractLsb'_append_eq_of_add_le, BitVec.extractLsb'_append_eq_of_le, BitVec.getElem_append]

/-- CT_PATi shows bits `32 i` to `32 i + 31` of the pattern (10_state R52). -/
theorem getLsbD_ctPatWord (c : Common) {i j : Nat} (hi : i < 8) (hj : j < 32) :
    (ctPatWord c i).getLsbD j = c.code[c.ctSel.toNat].pat.getLsbD (32 * i + j) := by
  have hbit : 32 * i + j < 256 := by omega
  simp [ctPatWord, Common.codeAt, hj, hbit]

/-! ### The windows -/

theorem nodeWindow_of_511 (u : UnitId) {c : Common} (v : Word) (h : c.nodeSel.toNat = 511) : nodeWindow u c v = .exact 0 :=
  if_pos (BitVec.eq_of_toNat_eq h)

theorem nodeWindow_of_valid {u : UnitId} {c : Common} (v : Word) (h : c.nodeSel.toNat < 511)
    (hvalid : treeValid u c.phase = true) : nodeWindow u c v = .exact v := by
  rw [nodeWindow, if_neg (fun heq => by simp [heq] at h), if_pos hvalid]

theorem nodeWindow_of_invalid {u : UnitId} {c : Common} (v : Word) (h : c.nodeSel.toNat ≠ 511)
    (hinvalid : treeValid u c.phase = false) : nodeWindow u c v = .unspecified := by
  rw [nodeWindow, if_neg (fun heq => h (by rw [heq]; rfl)), if_neg (by simp [hinvalid])]

theorem codeWindow_of_valid {u : UnitId} {c : Common} (v : Word) (h : codesValid u c.phase = true) :
    codeWindow u c v = .exact v :=
  if_pos h

theorem codeWindow_of_invalid {u : UnitId} {c : Common} (v : Word) (h : codesValid u c.phase = false) :
    codeWindow u c v = .unspecified :=
  if_neg (by simp [h])

/-- The selected node's entry. -/
theorem nodeAt_of_lt {c : Common} {n : NodeIdx} (h : n.toNat < 511) : c.nodeAt n = c.node[n.toNat] :=
  nodeOf_eq c.node n h

/-! ### Writes -/

/-- Offsets other than those of CMD, STATUS, IRQ_EN, CT_SEL and NODE_SEL take no write (20_memory R93). -/
theorem regWrite_of_not_mem (c : Common) (v : Word) {off : BitVec 12} (h : off ∉ [0x008, 0x00C, 0x014, 0x050, 0x078]) :
    c.regWrite (regAt off) v = c := by
  simp only [List.mem_cons, List.not_mem_nil, or_false, ← BitVec.toNat_inj] at h
  unfold regAt
  split
  case h_3 hoff | h_4 hoff | h_6 hoff | h_17 hoff | h_27 hoff => simp [hoff] at h
  case h_31 => split <;> rfl
  all_goals rfl

end Sys2Proof.Machine

open Sys2Proof Sys2Proof.Machine

/-- Settles O53: STATUS is read exactly, and its word's fields. -/
theorem statusWordFields : Obligations.StatusWordFields := by
  intro s u
  refine ⟨_, reads_of_shown .status rfl rfl (.inr rfl) rfl, ?_⟩
  cases u <;> exact statusWord_fields _ _ _ _ _

/-- Settles O54: each register is the one at its offset, and shows its field. -/
theorem registerReads : Obligations.RegisterReads := by
  intro s u
  refine ⟨⟨?id, reads_of_shown .version rfl rfl (.inr rfl) rfl,
    ⟨_, reads_of_shown .errCause rfl rfl (.inr rfl) rfl, errCauseWord_fields _ _ _⟩,
    ⟨_, reads_of_shown .irqEn rfl rfl (.inr rfl) rfl, irqEnWord_fields _ _⟩,
    reads_of_shown .ctSel rfl rfl (.inr rfl) rfl, reads_of_shown .nodeSel rfl rfl (.inr rfl) rfl⟩,
    fun hidle => ⟨reads_of_shown .cmd rfl rfl (.inl hidle) rfl,
      ⟨_, reads_of_shown .tbc rfl rfl (.inl hidle) rfl, tbcWord_fields _ _ _⟩,
      reads_of_shown .totalBitsLo rfl rfl (.inl hidle) rfl, reads_of_shown .totalBitsHi rfl rfl (.inl hidle) rfl,
      reads_of_shown .inBytesLo rfl rfl (.inl hidle) rfl, reads_of_shown .inBytesHi rfl rfl (.inl hidle) rfl,
      reads_of_shown .outBytesLo rfl rfl (.inl hidle) rfl, reads_of_shown .outBytesHi rfl rfl (.inl hidle) rfl,
      ⟨_, reads_of_shown .bitstate rfl rfl (.inl hidle) rfl, ?bitstate⟩, ?bits,
      fun off hoff hreserved => reads_of_shown .reserved (regAt_reserved hreserved) hoff (.inl hidle) rfl⟩⟩
  case id => cases u <;> exact reads_of_shown .id rfl rfl (.inr rfl) rfl
  case bitstate =>
    cases u
    · exact encBitstate_fields _ _
    · exact decBitstate_fields _ _ _ _
  case bits =>
    cases u <;> exact ⟨reads_of_shown .bitsLo rfl rfl (.inl hidle) rfl, reads_of_shown .bitsHi rfl rfl (.inl hidle) rfl⟩

/-- Settles O55: the windows of CODE, NODE and COUNT, each in the phases in which it is valid. -/
theorem readbackWindowsShowTables : Obligations.ReadbackWindowsShowTables := by
  intro s u hidle
  refine ⟨fun hcodes => ?len, fun hcodes i hi => ⟨ctPatWord (s.core u) i, ?pat, fun j hj => getLsbD_ctPatWord _ hi hj⟩,
    fun h511 => ⟨?_, ?_, ?_⟩, fun htree hnode => ⟨fun hleaf => ?leaf,
      fun hinner => ⟨nodeInfoWord (s.core u) (s.core u).nodeSel, ?inner, ?links⟩, ?lo, ?hi⟩,
    fun hphase x hx => ?count⟩
  case len => exact reads_of_shown .ctLen rfl rfl (.inl hidle) (codeWindow_of_valid _ hcodes)
  case pat =>
    refine reads_of_shown (.ctPat i) (regAt_ctPat hi) ?_ (.inl hidle) (codeWindow_of_valid _ hcodes)
    rw [BitVec.toNat_ofNat]
    omega
  · exact reads_of_shown .nodeInfo rfl rfl (.inl hidle) (nodeWindow_of_511 u _ h511)
  · exact reads_of_shown .nodeWLo rfl rfl (.inl hidle) (nodeWindow_of_511 u _ h511)
  · exact reads_of_shown .nodeWHi rfl rfl (.inl hidle) (nodeWindow_of_511 u _ h511)
  case leaf =>
    refine reads_of_shown .nodeInfo rfl rfl (.inl hidle) ((nodeWindow_of_valid _ hnode htree).trans ?_)
    rw [nodeInfoWord, if_pos hleaf, BitVec.ofNat_toNat]
  case inner => exact reads_of_shown .nodeInfo rfl rfl (.inl hidle) (nodeWindow_of_valid _ hnode htree)
  case links =>
    rw [nodeInfoWord, if_neg (by omega), nodeAt_of_lt hnode]
    exact nodeInfoWord_fields _ _
  case lo =>
    rw [← nodeAt_of_lt hnode]
    exact reads_of_shown .nodeWLo rfl rfl (.inl hidle) (nodeWindow_of_valid _ hnode htree)
  case hi =>
    rw [← nodeAt_of_lt hnode]
    exact reads_of_shown .nodeWHi rfl rfl (.inl hidle) (nodeWindow_of_valid _ hnode htree)
  case count =>
    have hshown : countWindow (s.core u) (BitVec.ofNat 8 x) = .exact ((s.core u).countAt (BitVec.ofNat 8 x)) :=
      if_neg (by rcases hphase with ⟨hidle, herror⟩ | ⟨herror, hinit⟩ <;> simp [*])
    have hcount : (s.core u).countAt (BitVec.ofNat 8 x) = (s.core u).count[x] := by
      simp only [Common.countAt, BitVec.toNat_ofNat, Nat.mod_eq_of_lt (show x < 2 ^ 8 from hx)]
    rw [hcount] at hshown
    refine reads_of_shown _ (regAt_count hx) ?_ (.inl hidle) hshown
    rw [BitVec.toNat_ofNat]
    omega

/-- Settles O57: a legal write acts by its register, and every other register keeps the unit. -/
theorem hostWritesActAtFourRegisters : Obligations.HostWritesActAtFourRegisters := by
  intro s u v
  have hwrite (off : BitVec 12) (hoff : off.toNat % 4 = 0) : hostMove (.write u off 32 v) s =
      .next ((s.setCore u ((s.core u).regWrite (regAt off) v)).reply .written) :=
    congrArg Host.Outcome.next (hostWrite_legal u off v s hoff)
  refine ⟨?status, hwrite 0x014 rfl, hwrite 0x050 rfl, hwrite 0x078 rfl, fun off hoff hother => ?other⟩
  case status =>
    have hdone : ((s.core u).done && !v.getLsbD 1) = if v.getLsbD 1 then false else (s.core u).done := by
      cases v.getLsbD 1 <;> simp
    rw [hwrite 0x00C rfl, ← hdone]
    rfl
  case other => rw [hwrite off hoff, regWrite_of_not_mem _ _ hother, State.setCore_core]

/-- Settles O58: the registers not read exactly while busy, and the windows outside their phases. -/
theorem unspecifiedReadsAreDraws : Obligations.UnspecifiedReadsAreDraws := by
  intro s u off width
  refine ⟨⟨_, rfl, hostRead_units u off width s⟩, fun hoff => ⟨fun hbusy hreg => ?busy,
    fun hidle hcodes hlo hhi => ?codes, fun hidle htree h511 hreg => ?tree, fun hidle hphase hlo hhi => ?count⟩⟩
  case busy =>
    refine readsDraw_of_regValue hoff (regValue_of_busy hbusy ?_)
    rcases hreg with hreg | ⟨hlo, hhi⟩
    · exact regAt_of_mem (P := fun r => r.exactWhileBusy = false) hreg (by decide)
    · rw [regAt_count_range hlo (by omega)]
      rfl
  case codes =>
    have hmem : off.toNat ∈ [0x054, 0x058, 0x05C, 0x060, 0x064, 0x068, 0x06C, 0x070, 0x074] := by
      simp only [List.mem_cons, List.not_mem_nil, or_false]
      omega
    refine readsDraw_of_regValue hoff ((regValue_of_shown (.inl hidle)).trans ?_)
    have hreg : regAt off = .ctLen ∨ ∃ i : Fin 8, regAt off = .ctPat i :=
      regAt_of_mem (P := fun r => r = .ctLen ∨ ∃ i : Fin 8, r = .ctPat i) hmem (by decide)
    rcases hreg with hreg | ⟨i, hreg⟩ <;> rw [hreg] <;> exact codeWindow_of_invalid _ hcodes
  case tree =>
    refine readsDraw_of_regValue hoff ((regValue_of_shown (.inl hidle)).trans ?_)
    have hreg : regAt off = .nodeInfo ∨ regAt off = .nodeWLo ∨ regAt off = .nodeWHi :=
      regAt_of_mem (P := fun r => r = .nodeInfo ∨ r = .nodeWLo ∨ r = .nodeWHi) hreg (by decide)
    rcases hreg with hreg | hreg | hreg <;> rw [hreg] <;> exact nodeWindow_of_invalid _ h511 htree
  case count =>
    refine readsDraw_of_regValue hoff ((regValue_of_shown (.inl hidle)).trans ?_)
    rw [regAt_count_range hlo (by omega)]
    exact if_pos hphase

/-- Settles O59: each move written out, and the banks from their bases. -/
theorem streamsAreFifoAndBanksSitAtTheirBases : Obligations.StreamsAreFifoAndBanksSitAtTheirBases := by
  refine ⟨fun s u => ⟨fun data => rfl, fun data => rfl, fun t rest hout => ?_, fun hout => ?_⟩,
    fun s => ⟨fun t rest hout => ?_, fun hout => ?_⟩, fun s u off width v => ⟨?_, banks_disjoint, ?_, ?_⟩,
    fun s addr width v henc hdec => ?_⟩
  · rw [hostMove, hostTake, hout]
  · rw [hostMove, hostTake, hout]
  · rw [hostMove, hostForward, hout]
    rfl
  · rw [hostMove, hostForward, hout]
  · cases u <;> exact Nat.mul_mod_right 4096 _
  · cases u
    · simp only [hostMove, busMove, bankAt_enc]
    · simp only [hostMove, busMove, bankAt_dec]
  · cases u
    · simp only [hostMove, busMove, bankAt_enc]
    · simp only [hostMove, busMove, bankAt_dec]
  · rw [hostMove, hostMove, busMove, busMove, bankAt_outside addr henc hdec]
    exact ⟨rfl, rfl⟩
end

section
/-! SUPPORT. A command and a change of IRQ_EN, CT_SEL and NODE_SEL commute: every body on the changed unit is the body on the unit,
changed (40_command_model R159). -/

namespace Sys2Proof.Machine

/-- Values for CT_SEL, NODE_SEL and the two bits of IRQ_EN. -/
structure Selection where
  ctSel : Symbol
  nodeSel : NodeIdx
  doneIe : Bool
  errIe : Bool

/-- The common part with those values set. -/
def Common.select (h : Selection) (c : Common) : Common :=
  { c with ctSel := h.ctSel, nodeSel := h.nodeSel, doneIe := h.doneIe, errIe := h.errIe }

/-- ENC with those values set. -/
def Enc.select (h : Selection) (e : Enc) : Enc := e.withCore (e.core.select h)

/-- DEC with those values set. -/
def Dec.select (h : Selection) (d : Dec) : Dec := d.withCore (d.core.select h)

/-- Both units with those values set. -/
def State.select (h : Selection) (s : State) : State := { s with enc := s.enc.select h, dec := s.dec.select h }

variable (h : Selection)

/-! ### Running a body -/

theorem runEnc_select (s : State) (b : Body Enc) :
    runEnc (s.select h) (b.lift (Enc.select h)) = andThen (runEnc s b) fun t => .next (t.select h) := by
  cases b <;> rfl

theorem runDec_select (s : State) (b : Body Dec) :
    runDec (s.select h) (b.lift (Dec.select h)) = andThen (runDec s b) fun t => .next (t.select h) := by
  cases b <;> rfl

theorem Enc.inPhase_select (e : Enc) (ps : List Phase) (b : Body Enc) :
    (e.select h).inPhase ps (b.lift (Enc.select h)) = (e.inPhase ps b).lift (Enc.select h) := by
  by_cases hphase : e.core.phase ∈ ps
  · rw [e.inPhase_of_mem _ _ hphase]
    exact (e.select h).inPhase_of_mem _ _ hphase
  · rw [e.inPhase_of_not_mem _ _ hphase]
    exact (e.select h).inPhase_of_not_mem _ _ hphase

theorem Dec.inPhase_select (d : Dec) (ps : List Phase) (b : Body Dec) :
    (d.select h).inPhase ps (b.lift (Dec.select h)) = (d.inPhase ps b).lift (Dec.select h) := by
  by_cases hphase : d.core.phase ∈ ps
  · rw [d.inPhase_of_mem _ _ hphase]
    exact (d.select h).inPhase_of_mem _ _ hphase
  · rw [d.inPhase_of_not_mem _ _ hphase]
    exact (d.select h).inPhase_of_not_mem _ _ hphase

theorem Body.handOverEnc_select (b : Body Enc) (st : Nat) :
    (b.lift (Enc.select h)).handOverEnc st = (b.handOverEnc st).lift (Enc.select h) := by
  cases b <;> rfl

theorem Body.handOverDec_select (b : Body Dec) (st : Nat) :
    (b.lift (Dec.select h)).handOverDec st = (b.handOverDec st).lift (Dec.select h) := by
  cases b <;> rfl

/-! ### DRAIN -/

theorem Common.drainBody_select (c : Common) : (c.select h).drainBody = c.drainBody.lift (Common.select h) := by
  match hinput : c.input with
  | [] =>
    rw [Common.drainBody_of_nil hinput]
    exact Common.drainBody_of_nil hinput
  | .eos :: rest =>
    rw [Common.drainBody_of_eos hinput]
    exact Common.drainBody_of_eos hinput
  | .byte b :: rest =>
    rw [Common.drainBody_of_byte hinput]
    exact Common.drainBody_of_byte hinput

/-! ### ENC -/

theorem Enc.countOne_select (e : Enc) (sym : Symbol) (next : Enc → Body Enc)
    (hnext : ∀ e', next (e'.select h) = (next e').lift (Enc.select h)) :
    (e.select h).countOne sym next = (e.countOne sym next).lift (Enc.select h) := by
  by_cases hmax : e.core.count[sym.toNat] = 0xFFFFFFFF
  · rw [e.countOne_of_eq_max _ _ hmax]
    exact (e.select h).countOne_of_eq_max _ _ hmax
  · rw [e.countOne_of_ne_max _ _ hmax]
    exact ((e.select h).countOne_of_ne_max _ _ hmax).trans
      (hnext (e.withCore (e.core.setCount sym (e.core.count[sym.toNat] + 1))))

theorem Enc.accumStreamBody_select (e : Enc) : (e.select h).accumStreamBody = e.accumStreamBody.lift (Enc.select h) := by
  match hinput : e.core.input with
  | [] =>
    rw [accumStreamBody_of_nil hinput]
    exact accumStreamBody_of_nil hinput
  | .eos :: rest =>
    rw [accumStreamBody_of_eos hinput]
    exact accumStreamBody_of_eos hinput
  | .byte b :: rest =>
    rw [accumStreamBody_of_byte hinput, ← countOne_select h _ _ _ fun _ => rfl]
    exact accumStreamBody_of_byte hinput

theorem Enc.append_select (e : Enc) (k : Code) : (e.select h).append k = (e.append k).select h := by
  by_cases hpend : e.pkPend.toNat + k.len.toNat ≤ 8
  · rw [e.append_of_le k hpend]
    exact (e.select h).append_of_le k hpend
  · rw [e.append_of_lt k (Nat.not_le.mp hpend)]
    exact (e.select h).append_of_lt k (Nat.not_le.mp hpend)

theorem Enc.packStreamBody_select (e : Enc) : (e.select h).packStreamBody = e.packStreamBody.lift (Enc.select h) := by
  match hinput : e.core.input with
  | [] =>
    rw [packStreamBody_of_nil hinput]
    exact packStreamBody_of_nil hinput
  | .eos :: rest =>
    rw [packStreamBody_of_eos hinput]
    exact packStreamBody_of_eos hinput
  | .byte b :: rest =>
    rw [packStreamBody_of_byte hinput, Body.lift, ← append_select]
    exact packStreamBody_of_byte hinput

theorem Enc.finish_select (e : Enc) : (e.select h).finish = e.finish.select h := by
  by_cases hpend : 0 < e.pkPend.toNat
  · rw [e.finish_of_pending hpend]
    exact (e.select h).finish_of_pending hpend
  · have hnone : e.pkPend = 0 := BitVec.eq_of_toNat_eq (Nat.eq_zero_of_not_pos hpend)
    rw [e.finish_of_none_pending hnone]
    exact (e.select h).finish_of_none_pending hnone

theorem Enc.finishBody_select (e : Enc) : (e.select h).finishBody = e.finishBody.lift (Enc.select h) := by
  by_cases htotal : e.packedBits = e.core.totalBits
  · rw [e.finishBody_of_eq htotal, Body.lift, ← finish_select]
    exact (e.select h).finishBody_of_eq htotal
  · rw [e.finishBody_of_ne htotal]
    exact (e.select h).finishBody_of_ne htotal

theorem Enc.buildTreeBody_select (e : Enc) : (e.select h).buildTreeBody = e.buildTreeBody.lift (Enc.select h) :=
  e.inPhase_select h _ (.fin (e.withCore e.core.buildTree) .treeBuilt)

theorem Enc.genCodesBody_select (e : Enc) : (e.select h).genCodesBody = e.genCodesBody.lift (Enc.select h) :=
  e.inPhase_select h _ (.fin (e.withCore e.core.genCodes) .codesReady)

theorem Enc.emitHeaderBody_select (e : Enc) : (e.select h).emitHeaderBody = e.emitHeaderBody.lift (Enc.select h) :=
  e.inPhase_select h _
    (.fin (e.withCore (e.core.emitBytes (headerBytes e.core.count ++ [e.core.calcTbc.setWidth 8]))) .headerSent)

theorem Enc.prepareBody_select (e : Enc) : (e.select h).prepareBody = e.prepareBody.lift (Enc.select h) := by
  have hstage : (e.select h).core.stageNow = e.core.stageNow := rfl
  rw [prepareBody, prepareBody, hstage, buildTreeBody_select, genCodesBody_select, emitHeaderBody_select,
    Body.handOverEnc_select, Body.handOverEnc_select]
  generalize e.core.stageNow = n
  rcases n with _ | _ | n <;> rfl

/-- Every body of ENC. -/
theorem Enc.body_select (e : Enc) (i : Instr) : (e.select h).body i = (e.body i).lift (Enc.select h) := by
  cases i
  case eAccum sym => exact (congrArg _ (e.countOne_select h sym _ fun _ => rfl)).trans (e.inPhase_select h _ _)
  case eAccumStream => exact (congrArg _ (e.accumStreamBody_select h)).trans (e.inPhase_select h _ _)
  case eBuildTree => exact e.buildTreeBody_select h
  case eGenCodes => exact e.genCodesBody_select h
  case eEmitHeader => exact e.emitHeaderBody_select h
  case ePack sym =>
    exact (congrArg (fun e' => (e.select h).inPhase _ (.fin e' .packing)) (e.append_select h _)).trans
      (e.inPhase_select h _ (.fin (e.append (e.core.codeAt sym)) .packing))
  case ePackStream => exact (congrArg _ (e.packStreamBody_select h)).trans (e.inPhase_select h _ _)
  case eFinish => exact (congrArg _ (e.finishBody_select h)).trans (e.inPhase_select h _ _)
  case ePrepare => exact e.prepareBody_select h
  case eDrain =>
    rw [body, body]
    refine (congrArg (fun b => Body.lift _ b) (e.core.drainBody_select h)).trans ?_
    cases e.core.drainBody <;> rfl
  all_goals rfl

/-! ### DEC -/

theorem Dec.loadHeaderBody_select (d : Dec) : (d.select h).loadHeaderBody = d.loadHeaderBody.lift (Dec.select h) := by
  cases hbegun : d.core.begun with
  | false =>
    rw [loadHeaderBody_of_not_begun hbegun]
    exact loadHeaderBody_of_not_begun hbegun
  | true =>
    match hinput : d.core.input with
    | [] =>
      rw [loadHeaderBody_of_nil hbegun hinput]
      exact loadHeaderBody_of_nil hbegun hinput
    | .eos :: rest =>
      rw [loadHeaderBody_of_eos hbegun hinput, d.core.consume_eos _ hinput]
      exact (loadHeaderBody_of_eos (d := d.select h) hbegun hinput).trans
        (by rw [(d.select h).core.consume_eos _ hinput]; rfl)
    | .byte b :: rest =>
      by_cases hlast : d.hdrIdx + 1 = 1024
      · rw [loadHeaderBody_of_last_byte hbegun hinput hlast, d.core.consume_byte _ _ hinput]
        exact (loadHeaderBody_of_last_byte (d := d.select h) hbegun hinput hlast).trans
          (by rw [(d.select h).core.consume_byte _ _ hinput]; rfl)
      · rw [loadHeaderBody_of_byte hbegun hinput hlast, d.core.consume_byte _ _ hinput]
        exact (loadHeaderBody_of_byte (d := d.select h) hbegun hinput hlast).trans
          (by rw [(d.select h).core.consume_byte _ _ hinput]; rfl)

theorem Dec.buildTreeBody_select (d : Dec) : (d.select h).buildTreeBody = d.buildTreeBody.lift (Dec.select h) :=
  d.inPhase_select h _ (.fin (d.withCore d.core.buildTree) .treeBuilt)

theorem Dec.genCodesBody_select (d : Dec) : (d.select h).genCodesBody = d.genCodesBody.lift (Dec.select h) :=
  d.inPhase_select h _ (.fin (d.withCore d.core.genCodes) .codesReady)

theorem Dec.checkTbcBody_select (d : Dec) : (d.select h).checkTbcBody = d.checkTbcBody.lift (Dec.select h) := by
  by_cases hphase : d.core.phase = .codesReady
  case neg =>
    have hnot := mt List.mem_singleton.mp hphase
    exact ((d.select h).inPhase_of_not_mem _ _ hnot).trans
      (congrArg (Body.lift (Dec.select h)) (d.inPhase_of_not_mem _ _ hnot)).symm
  match hinput : d.core.input with
  | [] =>
    rw [d.checkTbcBody_of_nil hphase hinput]
    exact (d.select h).checkTbcBody_of_nil hphase hinput
  | .eos :: rest =>
    rw [d.checkTbcBody_of_eos rest hphase hinput]
    exact (d.select h).checkTbcBody_of_eos rest hphase hinput
  | .byte v :: rest =>
    by_cases heq : v.toNat = d.core.calcTbc.toNat
    · rw [d.checkTbcBody_of_byte_eq rest v hphase hinput heq]
      exact (d.select h).checkTbcBody_of_byte_eq rest v hphase hinput heq
    · rw [d.checkTbcBody_of_byte_ne rest v hphase hinput heq]
      exact (d.select h).checkTbcBody_of_byte_ne rest v hphase hinput heq

/-- What a WalkStep comes to, with the values set. -/
def Walked.select : Walked → Walked
  | .hold => .hold
  | .inside d => .inside (d.select h)
  | .symbol d => .symbol (d.select h)
  | .ended d => .ended (d.select h)
  | .cut d => .cut (d.select h)

theorem Dec.hasBit_select {d d' : Dec} (hbit : HasBit d d') : HasBit (d.select h) (d'.select h) := by
  rcases hbit with ⟨hcnt, rfl⟩ | ⟨hcnt, b, t, rest, hinput, rfl⟩
  · exact .inl ⟨hcnt, rfl⟩
  · exact .inr ⟨hcnt, b, t, rest, hinput, rfl⟩

theorem Dec.afterBit_select (d : Dec) : afterBit (d.select h) = (afterBit d).select h := by
  by_cases hleaf : (childTaken d).toNat ≤ 255
  · have hleaf' : (childTaken (d.select h)).toNat ≤ 255 := hleaf
    simp only [afterBit, hleaf, hleaf', decide_true, if_true]
    rfl
  · have hleaf' : ¬(childTaken (d.select h)).toNat ≤ 255 := hleaf
    simp only [afterBit, hleaf, hleaf', decide_false, Bool.false_eq_true, if_false]
    rfl

theorem Dec.walkStep_select (d : Dec) : (d.select h).walkStep = d.walkStep.select h := by
  rcases d.walk_cases with ⟨d', hbit⟩ | ⟨rest, hcnt, hinput⟩ | ⟨hcnt, hinput⟩ | ⟨b, hcnt, hinput⟩
  · rw [walkStep_of_hasBit hbit, walkStep_of_hasBit (d.hasBit_select h hbit), afterBit_select]
    have hchild : childTaken (d'.select h) = childTaken d' := rfl
    rw [hchild]
    split <;> rfl
  · by_cases hroot : d.walkNode = rootNode
    · rw [walkStep_of_end hcnt hinput hroot, d.core.consume_eos _ hinput]
      exact (walkStep_of_end (d := d.select h) hcnt hinput hroot).trans
        (by rw [(d.select h).core.consume_eos _ hinput]; rfl)
    · rw [walkStep_of_cut hcnt hinput hroot, d.core.consume_eos _ hinput]
      exact (walkStep_of_cut (d := d.select h) hcnt hinput hroot).trans
        (by rw [(d.select h).core.consume_eos _ hinput]; rfl)
  · rw [walkStep_of_nil hcnt hinput]
    exact walkStep_of_nil (d := d.select h) hcnt hinput
  · rw [walkStep_of_lone_byte hcnt hinput]
    exact walkStep_of_lone_byte (d := d.select h) hcnt hinput

theorem Dec.walkBody_select (d : Dec) : (d.select h).walkBody = d.walkBody.lift (Dec.select h) := by
  rw [walkBody, walkBody, walkStep_select]
  cases d.walkStep <;> rfl

theorem Dec.decodeStreamBody_select (d : Dec) : (d.select h).decodeStreamBody = d.decodeStreamBody.lift (Dec.select h) := by
  rw [decodeStreamBody, decodeStreamBody, walkStep_select]
  cases d.walkStep <;> rfl

theorem Dec.runBody_select (d : Dec) : (d.select h).runBody = d.runBody.lift (Dec.select h) := by
  have hstage : (d.select h).core.stageNow = d.core.stageNow := rfl
  have hload : ((d.select h).withCore { (d.select h).core with stage := 0 }).loadHeaderBody =
      (d.withCore { d.core with stage := 0 }).loadHeaderBody.lift (Dec.select h) :=
    (d.withCore { d.core with stage := 0 }).loadHeaderBody_select h
  rw [runBody, runBody, hstage, hload, buildTreeBody_select, genCodesBody_select, checkTbcBody_select,
    decodeStreamBody_select, inPhase_select, inPhase_select, Body.handOverDec_select, Body.handOverDec_select,
    Body.handOverDec_select, Body.handOverDec_select]
  generalize d.core.stageNow = n
  rcases n with _ | _ | _ | _ | n <;> rfl

/-- Every body of DEC. -/
theorem Dec.body_select (d : Dec) (i : Instr) : (d.select h).body i = (d.body i).lift (Dec.select h) := by
  cases i
  case dLoadHeader => exact (congrArg _ (d.loadHeaderBody_select h)).trans (d.inPhase_select h _ _)
  case dBuildTree => exact d.buildTreeBody_select h
  case dGenCodes => exact d.genCodesBody_select h
  case dCheckTbc => exact d.checkTbcBody_select h
  case dWalk => exact (congrArg _ (d.walkBody_select h)).trans (d.inPhase_select h _ _)
  case dDecodeStream => exact (congrArg _ (d.decodeStreamBody_select h)).trans (d.inPhase_select h _ _)
  case dRun => exact d.runBody_select h
  case dDrain =>
    rw [body, body]
    refine (congrArg (fun b => Body.lift _ b) (d.core.drainBody_select h)).trans ?_
    cases d.core.drainBody <;> rfl
  all_goals rfl

/-- A command on the changed machine is the command, and then the change. -/
theorem exec_select (i : Instr) (s : State) : exec i (s.select h) = andThen (exec i s) fun t => .next (t.select h) := by
  cases hunit : i.unit with
  | enc => rw [exec_eq_runEnc_body _ _ hunit, exec_eq_runEnc_body _ _ hunit, ← runEnc_select, ← Enc.body_select]; rfl
  | dec => rw [exec_eq_runDec_body _ _ hunit, exec_eq_runDec_body _ _ hunit, ← runDec_select, ← Dec.body_select]; rfl

end Sys2Proof.Machine

open Sys2Proof Sys2Proof.Machine

/-- Settles O35: every command's body commutes with setting the selections. -/
theorem commandsIgnoreHostSelections : Obligations.CommandsIgnoreHostSelections :=
  fun ct nd di ei i s => exec_select ⟨ct, nd, di, ei⟩ i s
end

section
/-! SUPPORT. Bits in the order they are sent (20_memory R104, 43_bitpacker R230): the bits of a number, of a byte and of a code, and how
a string of bits becomes bytes and comes back (30_encoding R138, R139, 44_bitreader R251). -/

namespace Sys2Proof.Machine

/-! ### The low bits of a number -/

/-- The `n` low bits of `v`, most significant first. -/
def lowBits (n v : Nat) : List Bool := (List.range n).map fun j => v.testBit (n - 1 - j)

@[simp] theorem length_lowBits (n v : Nat) : (lowBits n v).length = n := by simp [lowBits]

@[simp] theorem lowBits_zero (v : Nat) : lowBits 0 v = [] := rfl

theorem lowBits_congr {n v w : Nat} (h : ∀ i < n, v.testBit i = w.testBit i) : lowBits n v = lowBits n w :=
  List.map_congr_left fun j hj => h _ (by have := List.mem_range.mp hj; omega)

/-- The high part and the low part. -/
theorem lowBits_add (n m v : Nat) : lowBits (n + m) v = lowBits n (v >>> m) ++ lowBits m v := by
  rw [lowBits, List.range_add, List.map_append, List.map_map]
  congr 1
  · refine List.map_congr_left fun j hj => ?_
    have hj := List.mem_range.mp hj
    rw [Nat.testBit_shiftRight]
    congr 1
    omega
  · refine List.map_congr_left fun j hj => ?_
    have hj := List.mem_range.mp hj
    rw [Function.comp_apply]
    congr 1
    omega

/-- A field `w` of `m` bits put below `v`. -/
theorem lowBits_shiftLeft_or {n m v w : Nat} (hw : w < 2 ^ m) :
    lowBits (n + m) ((v <<< m) ||| w) = lowBits n v ++ lowBits m w := by
  rw [lowBits_add]
  congr 1
  · rw [Nat.shiftRight_or_distrib, Nat.shiftLeft_shiftRight, Nat.shiftRight_eq_div_pow w, Nat.div_eq_of_lt hw, Nat.or_zero]
  · refine lowBits_congr fun i hi => ?_
    rw [Nat.testBit_or, Nat.testBit_shiftLeft, decide_eq_false (by omega), Bool.false_and, Bool.false_or]

theorem codeBits_eq (k : Code) : codeBits k = lowBits k.len.toNat k.pat.toNat := rfl

theorem bitsOfByte_eq (b : Byte) : bitsOfByte b = lowBits 8 b.toNat := rfl

theorem pendingBits_eq (e : Enc) : pendingBits e = lowBits e.pkPend.toNat e.pkAcc.toNat := rfl

@[simp] theorem length_bitsOfByte (b : Byte) : (bitsOfByte b).length = 8 := rfl

@[simp] theorem length_codeBits (k : Code) : (codeBits k).length = k.len.toNat := length_lowBits _ _

theorem bitsOfByte_ofNat (v : Nat) : bitsOfByte (BitVec.ofNat 8 v) = lowBits 8 v := by
  rw [bitsOfByte_eq]
  exact lowBits_congr fun i hi => by rw [BitVec.toNat_ofNat, Nat.testBit_mod_two_pow, decide_eq_true hi, Bool.true_and]

@[simp] theorem length_flatMap_bitsOfByte (bytes : List Byte) : (bytes.flatMap bitsOfByte).length = 8 * bytes.length := by
  induction bytes with
  | nil => rfl
  | cons b bytes ih =>
    rw [List.flatMap_cons, List.length_append, ih, length_bitsOfByte, List.length_cons]
    omega

/-- A flush (43_bitpacker R231): the bits of the bytes it emits, and those it leaves. -/
theorem flushedBytes_bits (a p n : Nat) (h : 8 * n ≤ p) :
    (flushedBytes a p n).flatMap bitsOfByte ++ lowBits (p - 8 * n) a = lowBits p a := by
  induction n with
  | zero => rfl
  | succ n ih =>
    have hsplit : p - 8 * n = 8 + (p - 8 * (n + 1)) := by omega
    have hlast : flushedBytes a p (n + 1) = flushedBytes a p n ++ [BitVec.ofNat 8 (a >>> (p - 8 * (n + 1)))] := by
      simp [flushedBytes, List.range_succ]
    rw [← ih (by omega), hlast, List.flatMap_append, List.flatMap_singleton, bitsOfByte_ofNat, List.append_assoc, hsplit,
      lowBits_add]

/-! ### Bytes from bits -/

/-- The number read from the first `n` bits of a list, most significant first, padded with zeros. -/
theorem testBit_foldl_range (bits : List Bool) (n j : Nat) (h : j < n) :
    ((List.range n).foldl (fun acc i => 2 * acc + (bits.getD i false).toNat) 0).testBit j = bits.getD (n - 1 - j) false := by
  induction n generalizing j with
  | zero => exact absurd h (Nat.not_lt_zero j)
  | succ n ih =>
    rw [List.range_succ, List.foldl_append, List.foldl_cons, List.foldl_nil, ← Nat.bit_val]
    cases j with
    | zero => exact Nat.testBit_bit_zero _ _
    | succ j =>
      rw [Nat.testBit_bit_succ, ih j (by omega)]
      congr 1
      omega

theorem getLsbD_byteOfBits (bits : List Bool) {j : Nat} (h : j < 8) :
    (byteOfBits bits).getLsbD j = bits.getD (7 - j) false := by
  rw [byteOfBits, BitVec.getLsbD_ofNat, decide_eq_true h, Bool.true_and, testBit_foldl_range bits 8 j h]

/-- The bits of such a byte are the list's first eight, padded with zeros. -/
theorem bitsOfByte_byteOfBits (bits : List Bool) :
    bitsOfByte (byteOfBits bits) = (List.range 8).map fun i => bits.getD i false :=
  List.map_congr_left fun j hj => by
    have hj := List.mem_range.mp hj
    rw [getLsbD_byteOfBits bits (by omega)]
    congr 1
    omega

/-- With at most eight bits, they come first. -/
theorem take_bitsOfByte_byteOfBits {bits : List Bool} (h : bits.length ≤ 8) :
    (bitsOfByte (byteOfBits bits)).take bits.length = bits := by
  rw [bitsOfByte_byteOfBits]
  refine List.ext_getElem (by simp [h]) fun i hi hi' => ?_
  simp [hi']

/-- A byte's bits make that byte. -/
theorem byteOfBits_bitsOfByte_append (b : Byte) (bits : List Bool) : byteOfBits (bitsOfByte b ++ bits) = b := by
  refine BitVec.eq_of_getLsbD_eq fun j hj => ?_
  rw [getLsbD_byteOfBits _ hj, List.getD_append _ _ _ _ (by rw [length_bitsOfByte]; omega)]
  have h : 7 - (7 - j) = j := by omega
  simp [bitsOfByte, List.getD_eq_getElem?_getD, show 7 - j < 8 by omega, h]

theorem length_packBits (bits : List Bool) : (packBits bits).length = (bits.length + 7) / 8 := by simp [packBits]

@[simp] theorem packBits_nil : packBits [] = [] := rfl

/-- Up to eight bits make one byte. -/
theorem packBits_of_le {bits : List Bool} (hpos : 0 < bits.length) (hle : bits.length ≤ 8) :
    packBits bits = [byteOfBits bits] := by
  have hone : (bits.length + 7) / 8 = 1 := by omega
  rw [packBits, hone]
  rfl

/-- Whole bytes first. -/
theorem packBits_bitsOfByte_append (b : Byte) (bits : List Bool) : packBits (bitsOfByte b ++ bits) = b :: packBits bits := by
  have hlen : ((bitsOfByte b ++ bits).length + 7) / 8 = (bits.length + 7) / 8 + 1 := by
    rw [List.length_append, length_bitsOfByte]
    omega
  rw [packBits, hlen, List.range_succ_eq_map, List.map_cons, List.map_map, Nat.mul_zero, List.drop_zero,
    byteOfBits_bitsOfByte_append]
  refine congrArg (b :: ·) (List.map_congr_left fun j _ => ?_)
  have hdrop : 8 * j.succ = (bitsOfByte b).length + 8 * j := by rw [length_bitsOfByte]; omega
  rw [Function.comp_apply, hdrop, List.drop_length_add_append]

theorem packBits_flatMap_append (bytes : List Byte) (bits : List Bool) :
    packBits (bytes.flatMap bitsOfByte ++ bits) = bytes ++ packBits bits := by
  induction bytes with
  | nil => rfl
  | cons b bytes ih =>
    rw [List.flatMap_cons, List.append_assoc, packBits_bitsOfByte_append, ih]
    rfl

/-- Every string of bits is whole bytes and fewer than eight bits more. -/
theorem exists_bytes_append (bits : List Bool) :
    ∃ (bytes : List Byte) (tail : List Bool), bits = bytes.flatMap bitsOfByte ++ tail ∧ tail.length < 8 := by
  induction hn : bits.length / 8 generalizing bits with
  | zero => exact ⟨[], bits, rfl, by omega⟩
  | succ n ih =>
    obtain ⟨bytes, tail, hbits, htail⟩ := ih (bits.drop 8) (by rw [List.length_drop]; omega)
    have hlen : (bits.take 8).length = 8 := by rw [List.length_take]; omega
    have hhead : bitsOfByte (byteOfBits (bits.take 8)) = bits.take 8 := by
      have h := take_bitsOfByte_byteOfBits (le_of_eq hlen)
      rwa [hlen, List.take_of_length_le (le_of_eq (length_bitsOfByte _))] at h
    refine ⟨byteOfBits (bits.take 8) :: bytes, tail, ?_, htail⟩
    rw [List.flatMap_cons, List.append_assoc, ← hbits, hhead, List.take_append_drop]

/-- Packed bits come back when the padding is cut off by the trailing-bit count (30_encoding R137 to R139, 44_bitreader R251). -/
theorem meaningfulBits_packBits (bits : List Bool) :
    meaningfulBits (if bits.length % 8 = 0 then 8 else bits.length % 8) (packBits bits) = bits := by
  obtain ⟨bytes, tail, rfl, htail⟩ := exists_bytes_append bits
  have hlen : (bytes.flatMap bitsOfByte ++ tail).length % 8 = tail.length := by
    rw [List.length_append, length_flatMap_bitsOfByte]
    omega
  rw [hlen, packBits_flatMap_append, meaningfulBits, List.flatMap_append]
  cases tail with
  | nil => simp [← length_flatMap_bitsOfByte]
  | cons t tail =>
    rw [packBits_of_le (List.length_pos_of_ne_nil (List.cons_ne_nil t tail)) (Nat.le_of_lt htail), List.flatMap_singleton,
      List.length_append,
      if_neg (by simp), List.length_singleton]
    have hcut : 8 * (bytes.length + 1) - (8 - (t :: tail).length) = (bytes.flatMap bitsOfByte).length + (t :: tail).length := by
      rw [length_flatMap_bitsOfByte]
      omega
    rw [hcut, List.take_length_add_append, take_bitsOfByte_byteOfBits (Nat.le_of_lt htail)]

end Sys2Proof.Machine
end

section
/-! SUPPORT. Whole runs of E.ACCUM_STREAM and E.PACK_STREAM (41_frequency R182, R185; 43_bitpacker R234, R238). -/

namespace Sys2Proof.Machine

/-! ### Runs -/

theorem execN_succ {n : Nat} {i : Instr} {s t : State} (h : exec i s = .next t) : execN (n + 1) i s = execN n i t := by
  rw [execN, h]

/-- One micro-step. -/
theorem execN_one (i : Instr) (s : State) : execN 1 i s = exec i s := by
  rw [execN]
  cases exec i s <;> rfl

/-- A run after a run. -/
theorem execN_add {n m : Nat} {i : Instr} {s t : State} (h : execN n i s = .next t) : execN (n + m) i s = execN m i t := by
  induction n generalizing s with
  | zero =>
    cases h
    rw [Nat.zero_add]
  | succ n ih =>
    rw [execN] at h
    cases hstep : exec i s <;> rw [hstep] at h
    case next u => rw [Nat.add_right_comm, execN_succ hstep, ih h]
    all_goals cases h

/-! ### E.ACCUM_STREAM -/

/-- A count raised by one at `b`, read back at `c`. -/
theorem toNat_getElem_set_add_one (count : Vector (BitVec 32) 256) (b c : Byte) (h : count[b.toNat] ≠ 0xFFFFFFFF) :
    (count.set b.toNat (count[b.toNat] + 1))[c.toNat].toNat = count[c.toNat].toNat + if b = c then 1 else 0 := by
  rw [Vector.getElem_set]
  by_cases hbc : b = c
  · subst hbc
    have hne : count[b.toNat].toNat ≠ 0xFFFFFFFF := fun heq => h (BitVec.eq_of_toNat_eq heq)
    rw [if_pos rfl, if_pos rfl, BitVec.toNat_add, Nat.mod_eq_of_lt]
    · rfl
    · have := count[b.toNat].isLt
      change _ + 1 < _
      omega
  · rw [if_neg (fun h => hbc (BitVec.eq_of_toNat_eq h)), if_neg hbc, Nat.add_zero]

/-- A counter after one byte and `n` more. -/
theorem counter_add_one_add (v : Counter) (n : Nat) : v + 1 + BitVec.ofNat 64 n = v + BitVec.ofNat 64 (n + 1) := by
  rw [BitVec.add_assoc, Nat.add_comm n 1, BitVec.ofNat_add]
  rfl

/-- ENC after E.ACCUM_STREAM over `n` bytes, with these counts. -/
def Enc.afterCounting (e : Enc) (rest : List Token) (n : Nat) (count : Vector (BitVec 32) 256) (go : Bool) : Enc :=
  { e with core := { e.core with
      input := rest, inBytes := e.core.inBytes + BitVec.ofNat 64 n, count := count, busy := false, done := true, begun := go } }

/-- ENC with one byte consumed and counted. -/
def Enc.counted (e : Enc) (input : List Token) (count : Vector (BitVec 32) 256) (go : Bool) : Enc :=
  { e with core := { e.core with input := input, inBytes := e.core.inBytes + 1, count := count, begun := go } }

/-- A byte in front of a run. -/
theorem Enc.afterCounting_counted (e : Enc) (input rest : List Token) (n : Nat) (count count' : Vector (BitVec 32) 256)
    (go go' : Bool) :
    (e.counted input count go).afterCounting rest n count' go' = e.afterCounting rest (n + 1) count' go' := by
  have hin := counter_add_one_add e.core.inBytes n
  simp only [afterCounting, counted, hin]

/-- E.ACCUM_STREAM over a copy of the input: every byte raises its own count. -/
theorem execN_eAccumStream (x : List Byte) (rest : List Token) (s : State) (hphase : s.enc.core.phase = .counting)
    (hinput : s.enc.core.input = x.map .byte ++ .eos :: rest)
    (hcount : ∀ b : Byte, s.enc.core.count[b.toNat].toNat + x.count b < 2 ^ 32) :
    ∃ count go,
      execN (x.length + 1) .eAccumStream s = .next { s with enc := s.enc.afterCounting rest x.length count go } ∧
      ∀ b : Byte, count[b.toNat].toNat = s.enc.core.count[b.toNat].toNat + x.count b := by
  induction x generalizing s with
  | nil =>
    obtain ⟨-, -, heos, -⟩ := accumStreamCountsOneToken.2 s
    refine ⟨s.enc.core.count, s.enc.core.begun, ?_, fun b => rfl⟩
    rw [List.length_nil, Nat.zero_add, execN_one, heos rest hphase hinput]
    simp [Enc.afterCounting, State.setCore, Enc.withCore]
  | cons b x ih =>
    obtain ⟨-, -, -, hbyte, -⟩ := accumStreamCountsOneToken.2 s
    have hmax : s.enc.core.count[b.toNat] ≠ 0xFFFFFFFF := fun heq => by
      have h := hcount b
      rw [heq, List.count_cons_self] at h
      change 0xFFFFFFFF + _ < _ at h
      omega
    have hset (c : Byte) := toNat_getElem_set_add_one s.enc.core.count b c hmax
    have hcons (c : Byte) : (b :: x).count c = x.count c + if b = c then 1 else 0 := by
      rw [List.count_cons]
      simp only [beq_iff_eq]
    obtain ⟨go, hstep⟩ := hbyte b _ hphase hinput hmax
    obtain ⟨count, go', hrun, hcounts⟩ := ih
      { s with enc := s.enc.counted _ (s.enc.core.count.set b.toNat (s.enc.core.count[b.toNat] + 1)) go } hphase rfl fun c => by
        have h := hcount c
        rw [hcons] at h
        rw [Enc.counted, hset]
        omega
    refine ⟨count, go', (execN_succ hstep).trans (hrun.trans ?_), fun c => ?_⟩
    · exact congrArg (fun e => Host.Outcome.next { s with enc := e }) (s.enc.afterCounting_counted _ _ _ _ _ _ _)
    · rw [hcounts c, hcons, Enc.counted, hset]
      omega

/-! ### E.PACK_STREAM -/

theorem payloadBits_cons (code : Vector Code 256) (b : Byte) (x : List Byte) :
    payloadBits code (b :: x) = codeBits code[b.toNat] ++ payloadBits code x :=
  List.flatMap_cons

/-- Every pattern of a code table is below 2^LEN (10_state R61). -/
def PatternsFit (code : Vector Code 256) : Prop := ∀ b : Byte, code[b.toNat].pat.toNat < 2 ^ code[b.toNat].len.toNat

/-- ENC after E.PACK_STREAM over `n` bytes: `bits` code bits taken in, `bytes` emitted, and `acc`, `pend` left pending. -/
def Enc.afterPacking (e : Enc) (rest : List Token) (n bits : Nat) (bytes : List Byte) (acc : Byte) (pend : BitVec 4)
    (go : Bool) : Enc :=
  { core := { e.core with
      input := rest, inBytes := e.core.inBytes + BitVec.ofNat 64 n
      output := e.core.output ++ bytes.map .byte, outBytes := e.core.outBytes + BitVec.ofNat 64 bytes.length
      phase := .packing, busy := false, done := true, begun := go }
    pkAcc := acc, pkPend := pend, packedBits := e.packedBits + BitVec.ofNat 64 bits }

/-- ENC with `bytes` emitted and `len` code bits more taken in, `acc` and `pend` being left pending. -/
def Enc.flushed (e : Enc) (len : Byte) (bytes : List Byte) (acc : Byte) (pend : BitVec 4) : Enc :=
  { core := e.core.emitBytes bytes, pkAcc := acc, pkPend := pend, packedBits := e.packedBits + len.setWidth 64 }

/-- The same, with a byte consumed as well and the model's own `begun` set. -/
def Enc.packed (e : Enc) (input : List Token) (len : Byte) (bytes : List Byte) (acc : Byte) (pend : BitVec 4)
    (go : Bool) : Enc :=
  { core := { e.core with
      input := input, inBytes := e.core.inBytes + 1, output := e.core.output ++ bytes.map .byte
      outBytes := e.core.outBytes + BitVec.ofNat 64 bytes.length, begun := go }
    pkAcc := acc, pkPend := pend, packedBits := e.packedBits + len.setWidth 64 }

/-- Append emits whole bytes and keeps the rest pending: the bits pending and the code's bits, in order (43_bitpacker R231). -/
theorem Enc.append_bits (e : Enc) (k : Code) (hk : k.pat.toNat < 2 ^ k.len.toNat) :
    ∃ bytes acc pend,
      e.append k = e.flushed k.len bytes acc pend ∧
      bytes.flatMap bitsOfByte ++ lowBits pend.toNat acc.toNat = pendingBits e ++ codeBits k := by
  rw [pendingBits_eq, codeBits_eq, ← lowBits_shiftLeft_or hk]
  by_cases hle : e.pkPend.toNat + k.len.toNat ≤ 8
  · have hnone : e.core.emitBytes [] = e.core := by simp [Common.emitBytes]
    refine ⟨[], BitVec.ofNat 8 ((e.pkAcc.toNat <<< k.len.toNat) ||| k.pat.toNat),
      BitVec.ofNat 4 (e.pkPend.toNat + k.len.toNat), ?_, ?_⟩
    · rw [Enc.flushed, hnone]
      exact e.append_of_le k hle
    · have hpend : (BitVec.ofNat 4 (e.pkPend.toNat + k.len.toNat)).toNat = e.pkPend.toNat + k.len.toNat := by
        rw [BitVec.toNat_ofNat, Nat.mod_eq_of_lt (by omega)]
      rw [hpend]
      refine lowBits_congr fun i hi => ?_
      rw [BitVec.toNat_ofNat, Nat.testBit_mod_two_pow, decide_eq_true (by omega), Bool.true_and]
  · refine ⟨_, _, _, e.append_of_lt k (Nat.not_le.mp hle), ?_⟩
    generalize (e.pkAcc.toNat <<< k.len.toNat) ||| k.pat.toNat = a
    generalize e.pkPend.toNat + k.len.toNat = p
    rw [← flushedBytes_bits a p (p / 8) (Nat.mul_div_le p 8)]
    have hpend : (BitVec.ofNat 4 (p % 8)).toNat = p % 8 := by rw [BitVec.toNat_ofNat, Nat.mod_eq_of_lt (by omega)]
    have hleft : p - 8 * (p / 8) = p % 8 := by omega
    rw [hpend, hleft]
    refine congrArg _ (lowBits_congr fun i hi => ?_)
    rw [BitVec.toNat_ofNat, Nat.testBit_mod_two_pow, decide_eq_true (by omega), Bool.true_and, Nat.testBit_and,
      Nat.testBit_two_pow_sub_one, decide_eq_true hi, Bool.and_true]

/-- A byte in front of a run. -/
theorem Enc.afterPacking_cons (e : Enc) (input rest : List Token) (n bits : Nat) (len acc acc' : Byte)
    (bytes bytes' : List Byte) (pend pend' : BitVec 4) (go go' : Bool) :
    (e.packed input len bytes acc pend go).afterPacking rest n bits bytes' acc' pend' go' =
      e.afterPacking rest (n + 1) (len.toNat + bits) (bytes ++ bytes') acc' pend' go' := by
  have hin := counter_add_one_add e.core.inBytes n
  simp only [afterPacking, packed, hin, List.append_assoc, List.map_append, List.length_append, BitVec.ofNat_add,
    BitVec.ofNat_toNat, BitVec.add_assoc]

/-- One byte of E.PACK_STREAM: its code joins the pending bits, and whole bytes of them are emitted. -/
theorem exec_ePackStream_of_byte {s : State} {b : Byte} {input : List Token}
    (hphase : s.enc.core.phase = .headerSent ∨ s.enc.core.phase = .packing) (hinput : s.enc.core.input = .byte b :: input)
    (hpending : PendingOk s.enc) (hpat : PatternsFit s.enc.core.code) :
    ∃ bytes acc pend go,
      exec .ePackStream s =
        .next { s with enc := s.enc.packed input s.enc.core.code[b.toNat].len bytes acc pend go } ∧
      PendingOk (s.enc.packed input s.enc.core.code[b.toNat].len bytes acc pend go) ∧
      bytes.flatMap bitsOfByte ++ lowBits pend.toNat acc.toNat = pendingBits s.enc ++ codeBits s.enc.core.code[b.toNat] := by
  obtain ⟨-, -, hbyte⟩ := (packStreamAppendsOneToken.2 s).2 hphase
  obtain ⟨go, hstep⟩ := hbyte b input hinput
  obtain ⟨bytes, acc, pend, happend, hbits⟩ := Enc.append_bits
    { s.enc with core := { s.enc.core with input := input, inBytes := s.enc.core.inBytes + 1 } } _ (hpat b)
  have hok := PendingOk.append
    (e := { s.enc with core := { s.enc.core with input := input, inBytes := s.enc.core.inBytes + 1 } }) hpending (hpat b)
  rw [happend] at hstep hok
  exact ⟨bytes, acc, pend, go, hstep, hok, hbits⟩

/-- E.PACK_STREAM over a copy of the input: the bits of the bytes emitted and those then pending are the bits pending before and the
codes of the input. -/
theorem execN_ePackStream (x : List Byte) (rest : List Token) (s : State)
    (hphase : s.enc.core.phase = .headerSent ∨ s.enc.core.phase = .packing)
    (hinput : s.enc.core.input = x.map .byte ++ .eos :: rest) (hpending : PendingOk s.enc)
    (hpat : PatternsFit s.enc.core.code) :
    ∃ bytes acc pend go,
      execN (x.length + 1) .ePackStream s = .next { s with
        enc := s.enc.afterPacking rest x.length (payloadBits s.enc.core.code x).length bytes acc pend go } ∧
      pend.toNat ≤ 8 ∧ acc.toNat < 2 ^ pend.toNat ∧
      bytes.flatMap bitsOfByte ++ lowBits pend.toNat acc.toNat = pendingBits s.enc ++ payloadBits s.enc.core.code x := by
  induction x generalizing s with
  | nil =>
    obtain ⟨-, heos, -⟩ := (packStreamAppendsOneToken.2 s).2 hphase
    refine ⟨[], s.enc.pkAcc, s.enc.pkPend, s.enc.core.begun, ?_, hpending.1, hpending.2, ?_⟩
    · rw [List.length_nil, Nat.zero_add, execN_one, heos rest hinput]
      simp [Enc.afterPacking, payloadBits, State.setCore, Enc.withCore]
    · rw [pendingBits_eq]
      simp [payloadBits]
  | cons b x ih =>
    obtain ⟨bytes, acc, pend, go, hstep, hok, hbits⟩ :=
      exec_ePackStream_of_byte (b := b) (input := x.map Token.byte ++ .eos :: rest) hphase hinput hpending hpat
    obtain ⟨bytes', acc', pend', go', hrun, hpend', hacc', hbits'⟩ :=
      ih { s with enc := s.enc.packed _ _ bytes acc pend go } hphase rfl hok hpat
    refine ⟨bytes ++ bytes', acc', pend', go', (execN_succ hstep).trans (hrun.trans ?_), hpend', hacc', ?_⟩
    · refine congrArg (fun e => Host.Outcome.next { s with enc := e })
        ((s.enc.afterPacking_cons _ _ _ _ _ _ _ _ _ _ _ _ _).trans ?_)
      rw [payloadBits_cons, List.length_append, length_codeBits]
      rfl
    · rw [List.flatMap_append, List.append_assoc, hbits', payloadBits_cons, ← List.append_assoc, ← List.append_assoc]
      exact congrArg (· ++ _) hbits

end Sys2Proof.Machine

open Sys2Proof Sys2Proof.Machine

/-- Settles O44, by the run of E.ACCUM_STREAM. -/
theorem accumStreamCountsTheInput : Obligations.AccumStreamCountsTheInput := by
  intro x rest s hphase hinput hcount
  obtain ⟨count, go, hrun, hcounts⟩ := execN_eAccumStream x rest s hphase hinput hcount
  exact ⟨_, hrun, rfl, hcounts, rfl, rfl, rfl, hphase, rfl, rfl⟩

/-- Settles O45, by the run of E.PACK_STREAM. -/
theorem packStreamEmitsTheCodeBits : Obligations.PackStreamEmitsTheCodeBits := by
  intro x rest s hphase hinput hpend hacc hpat
  obtain ⟨bytes, acc, pend, go, hrun, hpend', hacc', hbits⟩ := execN_ePackStream x rest s hphase hinput ⟨hpend, hacc⟩ hpat
  exact ⟨_, bytes, hrun, rfl, rfl, rfl, rfl, rfl, rfl, rfl, hpend', hacc', hbits, rfl⟩
end

section
/-! SUPPORT. The count table of an input and the length of its payload (41_frequency R180, 42_tree_codes R206); and what FINISH leaves
after the packer (43_bitpacker R235, R237). -/

namespace Sys2Proof.Machine

/-! ### Counting over the 256 symbols -/

/-- A sum over the symbols, weighted by how often each occurs in `x`, is a sum over `x`. -/
theorem sum_count_mul (f : Fin 256 → Nat) (x : List Byte) :
    ((List.finRange 256).map fun s => x.count (BitVec.ofFin s) * f s).sum = (x.map fun b => f b.toFin).sum := by
  rw [← Fin.sum_univ_def]
  induction x with
  | nil => simp
  | cons b x ih =>
    have hone (s : Fin 256) : (b :: x).count (BitVec.ofFin s) * f s =
        x.count (BitVec.ofFin s) * f s + if s = b.toFin then f s else 0 := by
      have hiff : b = BitVec.ofFin s ↔ s = b.toFin := ⟨fun h => by rw [h], fun h => by rw [h]⟩
      rw [List.count_cons]
      by_cases h : s = b.toFin <;> simp [hiff, h, Nat.add_mul]
    rw [Finset.sum_congr rfl fun s _ => hone s, Finset.sum_add_distrib, ih, Finset.sum_ite_eq', if_pos (Finset.mem_univ _),
      List.map_cons, List.sum_cons, Nat.add_comm]

variable {x : List Byte} (hx : ∀ b : Byte, x.count b < 2 ^ 32)

include hx in
theorem toNat_getElem_countTable (b : Byte) : (countTable x)[b.toNat].toNat = x.count b := by
  rw [countTable, Vector.getElem_ofFn, BitVec.toNat_ofNat, BitVec.ofNat_toNat, BitVec.setWidth_eq, Nat.mod_eq_of_lt (hx b)]

/-- A table of the right counts is the count table. -/
theorem eq_countTable {count : Vector (BitVec 32) 256} (h : ∀ b : Byte, count[b.toNat].toNat = x.count b) :
    count = countTable x := by
  refine Vector.ext fun i hi => BitVec.eq_of_toNat_eq ?_
  have hb : (BitVec.ofNat 8 i).toNat = i := by rw [BitVec.toNat_ofNat, Nat.mod_eq_of_lt hi]
  have hcount := h (BitVec.ofNat 8 i)
  simp only [hb] at hcount
  have hlt : x.count (BitVec.ofNat 8 i) < 2 ^ 32 := hcount ▸ count[i].isLt
  rw [hcount, countTable, Vector.getElem_ofFn, BitVec.toNat_ofNat, Nat.mod_eq_of_lt hlt]

include hx in
/-- The same for a symbol given as a number below 256. -/
theorem toNat_getElem_countTable_fin (s : Fin 256) : (countTable x)[s].toNat = x.count (BitVec.ofFin s) := by
  have h := toNat_getElem_countTable hx (BitVec.ofFin s)
  simp only [BitVec.toNat_ofFin] at h
  rw [Fin.getElem_fin, h]

include hx in
/-- The counts sum to the length (40_command_model R164). -/
theorem sum_countTable : ((countTable x).toList.map BitVec.toNat).sum = x.length := by
  have hlist : (countTable x).toList.map BitVec.toNat = (List.finRange 256).map fun s => (countTable x)[s].toNat :=
    List.ext_getElem (by simp) fun i hi hi' => by simp
  have hterm (s : Fin 256) : (countTable x)[s].toNat = x.count (BitVec.ofFin s) * 1 := by
    rw [toNat_getElem_countTable_fin hx, Nat.mul_one]
  rw [hlist, List.map_congr_left fun s _ => hterm s, sum_count_mul fun _ => 1, List.map_const', List.sum_replicate, smul_eq_mul,
    Nat.mul_one]

include hx in
/-- The payload has as many bits as TOTAL_BITS says (42_tree_codes R206). -/
theorem length_payloadBits (code : Vector Code 256) : (payloadBits code x).length = totalBitsNat (countTable x) code := by
  have hterm (s : Fin 256) : (countTable x)[s].toNat * code[s].len.toNat = x.count (BitVec.ofFin s) * code[s].len.toNat := by
    rw [toNat_getElem_countTable_fin hx]
  rw [totalBitsNat_eq, List.map_congr_left fun s _ => hterm s, sum_count_mul (fun s => code[s].len.toNat), payloadBits,
    List.length_flatMap]
  exact congrArg List.sum (List.map_congr_left fun b _ => length_codeBits _)

/-- So the trailing-bit count of TOTAL_BITS is that of the payload. -/
theorem toNat_tbcOf_total (count : Vector (BitVec 32) 256) (code : Vector Code 256) {n : Nat}
    (h : n = totalBitsNat count code) :
    (tbcOf (totalBitsOf count code)).toNat = if n % 8 = 0 then 8 else n % 8 := by
  rw [toNat_tbcOf, toNat_totalBitsOf, h]

/-! ### The last byte -/

/-- FINISH's last byte is the pending bits and padding. -/
theorem Enc.finalByte_eq (e : Enc) (h : e.pkPend.toNat ≤ 8) : e.finalByte = byteOfBits (pendingBits e) := by
  refine BitVec.eq_of_getLsbD_eq fun j hj => ?_
  rw [getLsbD_byteOfBits _ hj, finalByte, BitVec.getLsbD_ofNat, decide_eq_true hj, Bool.true_and, Nat.testBit_shiftLeft,
    pendingBits_eq]
  by_cases hpad : 8 - e.pkPend.toNat ≤ j
  · have hlt : 7 - j < e.pkPend.toNat := by omega
    have hidx : e.pkPend.toNat - 1 - (7 - j) = j - (8 - e.pkPend.toNat) := by omega
    simp [lowBits, List.getD_eq_getElem?_getD, hpad, hlt, hidx]
  · have hge : ¬7 - j < e.pkPend.toNat := by omega
    simp [lowBits, List.getD_eq_getElem?_getD, hpad, hge]

/-- FINISH, once the totals agree: it emits the pending bits packed and an EOS, and FIN_TBC tells how many of them are in the last
byte (43_bitpacker R235). -/
theorem Enc.finish_eq (e : Enc) (h : e.pkPend.toNat ≤ 8) :
    e.finish = { e with
      pkAcc := 0, pkPend := 0
      core := { e.core with
        output := e.core.output ++ (packBits (pendingBits e)).map .byte ++ [.eos]
        outBytes := e.core.outBytes + BitVec.ofNat 64 (packBits (pendingBits e)).length
        auxTbc := if e.pkPend.toNat = 0 then 8 else e.pkPend.setWidth 8, auxValid := true } } := by
  have hlen : (pendingBits e).length = e.pkPend.toNat := by rw [pendingBits_eq, length_lowBits]
  by_cases hpend : e.pkPend.toNat = 0
  · have hnone : pendingBits e = [] := List.length_eq_zero_iff.mp (hlen.trans hpend)
    have hzero : e.pkPend = 0 := BitVec.eq_of_toNat_eq hpend
    rw [e.finish_of_none_pending hzero, hnone, if_pos hpend, ← hzero]
    simp
  · have hpos := Nat.pos_of_ne_zero hpend
    rw [e.finish_of_pending hpos, packBits_of_le (hlen ▸ hpos) (hlen ▸ h), ← e.finalByte_eq h, if_neg hpend]
    simp

/-! ### From COUNTING to HEADER_SENT -/

/-- ENC after BUILD_TREE, GEN_CODES and EMIT_HEADER on its counts (42_tree_codes R208, R210, 45_encoder_control R275). -/
def Enc.prepared (e : Enc) : Enc :=
  { e with core := { e.core with
      node := treeBuild e.core.count, code := codeTable e.core.count
      totalBits := totalBitsOf e.core.count (codeTable e.core.count)
      calcTbc := tbcOf (totalBitsOf e.core.count (codeTable e.core.count))
      output := e.core.output ++
        (headerBytes e.core.count ++ [(tbcOf (totalBitsOf e.core.count (codeTable e.core.count))).setWidth 8]).map .byte
      outBytes := e.core.outBytes + BitVec.ofNat 64
        (headerBytes e.core.count ++ [(tbcOf (totalBitsOf e.core.count (codeTable e.core.count))).setWidth 8]).length
      phase := .headerSent, busy := false, done := true } }

theorem exec_eBuildTree_of_counting {s : State} (h : s.enc.core.phase = .counting) :
    exec .eBuildTree s = .next (s.setCore .enc (s.enc.core.buildTree.complete .treeBuilt)) := by
  change runEnc s (s.enc.inPhase _ _) = _
  rw [s.enc.inPhase_of_mem _ _ (List.mem_singleton.mpr h)]
  rfl

theorem exec_eGenCodes_of_treeBuilt {s : State} (h : s.enc.core.phase = .treeBuilt) :
    exec .eGenCodes s = .next (s.setCore .enc (s.enc.core.genCodes.complete .codesReady)) := by
  change runEnc s (s.enc.inPhase _ _) = _
  rw [s.enc.inPhase_of_mem _ _ (List.mem_singleton.mpr h)]
  rfl

theorem exec_eEmitHeader_of_codesReady {s : State} (h : s.enc.core.phase = .codesReady) :
    exec .eEmitHeader s = .next (s.setCore .enc
      ((s.enc.core.emitBytes (headerBytes s.enc.core.count ++ [s.enc.core.calcTbc.setWidth 8])).complete .headerSent)) := by
  change runEnc s (s.enc.inPhase _ _) = _
  rw [s.enc.inPhase_of_mem _ _ (List.mem_singleton.mpr h)]
  rfl

theorem andThen_next (t : State) (f : State → Host.Outcome State Fault Refusal) : andThen (.next t) f = f t := rfl

theorem exec_prepared {s : State} (h : s.enc.core.phase = .counting) :
    andThen (andThen (exec .eBuildTree s) (exec .eGenCodes)) (exec .eEmitHeader) = .next { s with enc := s.enc.prepared } := by
  rw [exec_eBuildTree_of_counting h, andThen_next, exec_eGenCodes_of_treeBuilt rfl, andThen_next,
    exec_eEmitHeader_of_codesReady rfl]
  rfl

theorem exec_eFinish_of_packing {s : State} (h : s.enc.core.phase = .packing)
    (htotal : s.enc.packedBits = s.enc.core.totalBits) :
    exec .eFinish s = .next { s with enc := s.enc.finish.withCore (s.enc.finish.core.complete .finished) } := by
  change runEnc s (s.enc.inPhase _ _) = _
  rw [runEnc_inPhase_packer s _ (.inr h), s.enc.finishBody_of_eq htotal]
  rfl

/-! ### The file -/

/-- The bytes of an encoded file (30_encoding R135 to R139). -/
theorem length_encodeFile (x : List Byte) :
    (encodeFile x).length = 1025 + ((payloadBits (codeTable (countTable x)) x).length + 7) / 8 := by
  rw [encodeFile, List.length_append, List.length_append, length_headerBytes, length_packBits]
  rfl

/-- The file, from the bytes a packer has emitted and the bits it has still pending. -/
theorem encodeFile_eq_of_bits {x bytes : List Byte} {n v : Nat}
    (h : bytes.flatMap bitsOfByte ++ lowBits n v = payloadBits (codeTable (countTable x)) x) :
    encodeFile x = (headerBytes (countTable x) ++
      [(tbcOf (totalBitsOf (countTable x) (codeTable (countTable x)))).setWidth 8]) ++ (bytes ++ packBits (lowBits n v)) := by
  rw [← packBits_flatMap_append, h]
  rfl

/-- FIN_TBC, the number of bits in the last byte, is the trailing-bit count of all of them (43_bitpacker R237). -/
theorem finTbc_eq {t : Counter} {pend : BitVec 4} {n : Nat} (hle : pend.toNat ≤ 8)
    (ht : (tbcOf t).toNat = if (8 * n + pend.toNat) % 8 = 0 then 8 else (8 * n + pend.toNat) % 8) :
    (if pend.toNat = 0 then (8 : Byte) else pend.setWidth 8) = (tbcOf t).setWidth 8 := by
  refine BitVec.eq_of_toNat_eq ?_
  rw [BitVec.toNat_setWidth_of_le (by decide), ht]
  split
  case isTrue hzero => rw [hzero, if_pos (by omega)]; rfl
  case isFalse hzero =>
    rw [BitVec.toNat_setWidth_of_le (by decide)]
    split <;> omega

/-- ENC after both passes over `x`, before FINISH: `bytes` of the payload emitted, and `acc`, `pend` left pending. -/
def Enc.unfinished (e : Enc) (x : List Byte) (rest : List Token) (bytes : List Byte) (acc : Byte) (pend : BitVec 4)
    (go go' : Bool) : Enc :=
  (e.afterCounting (x.map .byte ++ .eos :: rest) x.length (countTable x) go).prepared.afterPacking rest x.length
    (payloadBits (codeTable (countTable x)) x).length bytes acc pend go'

/-- The encoder's commands up to E.PACK_STREAM on an input sent twice. -/
theorem run_unfinished {x : List Byte} {rest : List Token} {s : State} (hx : ∀ b : Byte, x.count b < 2 ^ 32)
    (hphase : s.enc.core.phase = .counting) (hzero : s.enc.core.count = Vector.replicate 256 0) (hacc : s.enc.pkAcc = 0)
    (hpend : s.enc.pkPend = 0) (hinput : s.enc.core.input = x.map .byte ++ .eos :: (x.map .byte ++ .eos :: rest)) :
    ∃ bytes acc pend go go',
      andThen (andThen (andThen (andThen (execN (x.length + 1) .eAccumStream s) (exec .eBuildTree)) (exec .eGenCodes))
        (exec .eEmitHeader)) (execN (x.length + 1) .ePackStream) =
        .next { s with enc := s.enc.unfinished x rest bytes acc pend go go' } ∧
      pend.toNat ≤ 8 ∧
      bytes.flatMap bitsOfByte ++ lowBits pend.toNat acc.toNat = payloadBits (codeTable (countTable x)) x := by
  obtain ⟨count, go, hcounting, hcounts⟩ := execN_eAccumStream x _ s hphase hinput fun b => by simpa [hzero] using hx b
  obtain rfl : count = countTable x := eq_countTable fun b => by simpa [hzero] using hcounts b
  have hprepared := exec_prepared
    (s := { s with enc := s.enc.afterCounting (x.map .byte ++ .eos :: rest) x.length (countTable x) go }) hphase
  obtain ⟨bytes, acc, pend, go', hpacking, hle, -, hbits⟩ := execN_ePackStream x rest
    { s with enc := (s.enc.afterCounting _ x.length (countTable x) go).prepared } (.inl rfl) rfl (pendingOk_of_none hacc hpend)
    fun b => codeTable_pat_lt (countTable x) b.toNat b.isLt
  refine ⟨bytes, acc, pend, go, go', ?_, hle, hbits.trans ?_⟩
  · rw [hcounting, andThen_next, hprepared, andThen_next, hpacking]
    rfl
  · change pendingBits s.enc ++ payloadBits (codeTable (countTable x)) x = _
    rw [pendingBits_eq, hpend]
    rfl

end Sys2Proof.Machine

open Sys2Proof Sys2Proof.Machine

/-- Settles O46: the counts of the first copy, the header of those counts, the bits of the second copy, and the last byte. -/
theorem encoderRunWritesEncodedFile : Obligations.EncoderRunWritesEncodedFile := by
  intro x rest s hx hphase hzero hacc hpend hpacked hinput
  obtain ⟨bytes, acc, pend, go, go', hrun, hle, hbits⟩ := run_unfinished hx hphase hzero hacc hpend hinput
  have hlen := length_payloadBits hx (codeTable (countTable x))
  have hfile := encodeFile_eq_of_bits hbits
  obtain ⟨e, he⟩ : ∃ e, e = s.enc.unfinished x rest bytes acc pend go go' := ⟨_, rfl⟩
  have htotal : e.packedBits = e.core.totalBits := by
    rw [he]
    change s.enc.packedBits + BitVec.ofNat 64 _ = totalBitsOf (countTable x) (codeTable (countTable x))
    rw [hpacked, totalBitsOf, hlen]
    exact BitVec.zero_add _
  have hfinish : exec .eFinish { s with enc := e } =
      .next { s with enc := e.finish.withCore (e.finish.core.complete .finished) } :=
    exec_eFinish_of_packing (by rw [he]; rfl) htotal
  rw [hrun, andThen_next, ← he, hfinish, e.finish_eq (by rw [he]; exact hle)]
  refine ⟨_, rfl, rfl, rfl, rfl, ?input, ?output, ?table, ?sum, ?inBytes, htotal, ?tbc, rfl, ?outBytes, length_encodeFile x⟩
  case tbc =>
    have hcalc : e.core.calcTbc = tbcOf (totalBitsOf (countTable x) (codeTable (countTable x))) := by
      simp only [he, Enc.unfinished, Enc.afterPacking, Enc.prepared, Enc.afterCounting]
    have hpend : e.pkPend = pend := by rw [he]; rfl
    change (if e.pkPend.toNat = 0 then (8 : Byte) else e.pkPend.setWidth 8) = e.core.calcTbc.setWidth 8
    rw [hcalc, hpend]
    refine finTbc_eq (n := bytes.length) hle (toNat_tbcOf_total _ _ (Eq.trans ?_ hlen))
    rw [← hbits, List.length_append, length_flatMap_bitsOfByte, length_lowBits]
  all_goals subst he
  case input => rfl
  case table => rfl
  case sum => exact sum_countTable hx
  case output =>
    rw [hfile, List.map_append, List.map_append (l₁ := bytes), ← List.append_assoc, ← List.append_assoc]
    rfl
  case inBytes =>
    rw [Nat.two_mul, BitVec.ofNat_add, ← BitVec.add_assoc]
    rfl
  case outBytes =>
    rw [hfile, List.length_append, List.length_append (as := bytes), BitVec.ofNat_add, BitVec.ofNat_add, ← BitVec.add_assoc,
      ← BitVec.add_assoc]
    rfl
end

section
/-! SUPPORT. D.RUN up to the payload (46_decoder_control R295): the header bytes, the tree, the codes and the TBC byte; and the files
that end it in ERROR there (40_command_model R166). -/

namespace Sys2Proof.Machine

/-! ### The header -/

/-- DEC in D.RUN, with the bytes `f` of the header loaded and `tail` still queued. -/
def Dec.loaded (d : Dec) (f : List Byte) (tail : List Token) : Dec :=
  { d with
    hdrIdx := f.length
    core := { d.core with
      input := tail, inBytes := d.core.inBytes + BitVec.ofNat 64 f.length, count := (d.core.loadBytes 0 f).count
      phase := if f.length = 1024 then .headerLoaded else .ready
      stage := if f.length = 1024 then 1 else 0
      begun := true } }

/-- A byte more, in range, in COUNT. -/
theorem Common.count_loadBytes_concat (c : Common) (f : List Byte) (b : Byte) (h : f.length < 1024) :
    (c.loadBytes 0 (f ++ [b])).count = (c.loadBytes 0 f).count.set (f.length / 4)
      (setCountByte (c.loadBytes 0 f).count[f.length / 4] (f.length % 4) b) := by
  rw [loadBytes_append, Nat.zero_add]
  change ((c.loadBytes 0 f).loadHeaderByte f.length b).count = _
  rw [loadHeaderByte_of_lt _ _ h]

/-- The first micro-step of D.RUN, and then one for each header byte. -/
theorem execN_dRun_loaded (f : List Byte) (tail : List Token) (s : State) (hlen : f.length ≤ 1024)
    (hphase : s.dec.core.phase = .ready) (hbegun : s.dec.core.begun = false)
    (hinput : s.dec.core.input = f.map .byte ++ tail) :
    execN (f.length + 1) .dRun s = .next { s with dec := s.dec.loaded f tail } := by
  induction f using List.reverseRecOn generalizing tail with
  | nil =>
    obtain ⟨-, hstart, -⟩ := runHandsOverAndCompletes.2 s
    rw [List.length_nil, Nat.zero_add, execN_one, hstart hbegun hphase]
    simpa [Dec.loaded, Common.loadBytes, ← hphase] using hinput
  | append_singleton f b ih =>
    rw [List.length_append, List.length_singleton] at hlen
    have hload := ih (.byte b :: tail) (by omega) (by rw [hinput]; simp)
    have hlt : f.length < 1024 := by omega
    obtain ⟨-, -, hbyte, -⟩ := runHandsOverAndCompletes.2 { s with dec := s.dec.loaded f (.byte b :: tail) }
    have hstep := hbyte b tail hlt rfl (if_neg hlt.ne) (if_neg hlt.ne) rfl
    rw [List.length_append, List.length_singleton, execN_add hload, execN_one, hstep]
    have hlast : f.length + 1 = 1024 ↔ f.length = 1023 := by omega
    simp only [Dec.loaded, List.length_append, List.length_singleton, hlast, s.dec.core.count_loadBytes_concat f b hlt,
      BitVec.ofNat_add, BitVec.add_assoc]
    rfl

/-- DEC in D.RUN with this count table, its tree and its codes, at the TBC byte. -/
def Dec.prepared (d : Dec) (count : Vector (BitVec 32) 256) (tail : List Token) : Dec :=
  { d with
    hdrIdx := 1024
    core := { d.core with
      input := tail, inBytes := d.core.inBytes + 1024, count := count, node := treeBuild count, code := codeTable count
      totalBits := totalBitsOf count (codeTable count), calcTbc := tbcOf (totalBitsOf count (codeTable count))
      phase := .codesReady, stage := 3, begun := true } }

/-- BUILD_TREE and GEN_CODES inside D.RUN. -/
theorem execN_dRun_tree_codes {s : State} (hbegun : s.dec.core.begun = true) (hstage : s.dec.core.stage = 1)
    (hphase : s.dec.core.phase = .headerLoaded) :
    execN 2 .dRun s = .next (s.setCore .dec { s.dec.core with
      node := treeBuild s.dec.core.count, code := codeTable s.dec.core.count
      totalBits := totalBitsOf s.dec.core.count (codeTable s.dec.core.count)
      calcTbc := tbcOf (totalBitsOf s.dec.core.count (codeTable s.dec.core.count))
      phase := .codesReady, stage := 3 }) := by
  obtain ⟨-, -, -, -, -, htree, -⟩ := runHandsOverAndCompletes.2 s
  obtain ⟨-, -, -, -, -, -, hcodes, -⟩ := runHandsOverAndCompletes.2 (s.setCore .dec { s.dec.core with
    node := treeBuild s.dec.core.count, phase := .treeBuilt, stage := 2 })
  rw [execN_succ (htree hbegun hstage hphase), execN_one, hcodes hbegun rfl rfl]
  rfl

/-- A whole header, the tree and the codes. -/
theorem execN_dRun_prepared (f : List Byte) (tail : List Token) (s : State) (hlen : f.length = 1024)
    (hphase : s.dec.core.phase = .ready) (hbegun : s.dec.core.begun = false)
    (hinput : s.dec.core.input = f.map .byte ++ tail) :
    execN (f.length + 3) .dRun s = .next { s with dec := s.dec.prepared (s.dec.core.loadBytes 0 f).count tail } := by
  have hload := execN_dRun_loaded f tail s hlen.le hphase hbegun hinput
  have htables := execN_dRun_tree_codes (s := { s with dec := s.dec.loaded f tail }) rfl (if_pos hlen) (if_pos hlen)
  rw [execN_add (n := f.length + 1) (m := 2) hload, htables]
  simp only [State.setCore, Dec.withCore, Dec.loaded, Dec.prepared, hlen]
  rfl

/-- What is left of the machine by an error entry of DEC outside ERROR. -/
theorem withError_dec_of_ne_error {s : State} (k : Cause) (opc : Byte) (h : s.dec.core.phase ≠ .error) :
    withError .dec k opc s = s.setCore .dec { s.dec.core with
      errCause := ⟨k.code, opc, k.kind⟩, phase := .error, busy := false } := by
  simp only [withError, State.core_dec, h, if_false]

/-! ### The files that end in ERROR there -/

/-- A header cut short. -/
theorem execN_dRun_truncated (f : List Byte) (rest : List Token) (s : State) (hlen : f.length < 1024)
    (hphase : s.dec.core.phase = .ready) (hbegun : s.dec.core.begun = false)
    (hinput : s.dec.core.input = f.map .byte ++ .eos :: rest) :
    execN (f.length + 2) .dRun s = .next { s with dec := (s.dec.loaded f rest).withCore { (s.dec.loaded f rest).core with
      errCause := ⟨Cause.truncatedHeader.code, s.dec.core.cur.extractLsb' 0 8, Cause.truncatedHeader.kind⟩
      phase := .error, busy := false } } := by
  have hload := execN_dRun_loaded f (.eos :: rest) s hlen.le hphase hbegun hinput
  obtain ⟨-, -, -, heos, -⟩ := runHandsOverAndCompletes.2 { s with dec := s.dec.loaded f (.eos :: rest) }
  have hready : (s.dec.loaded f (.eos :: rest)).core.phase = .ready := if_neg hlen.ne
  rw [execN_add (n := f.length + 1) (m := 1) hload, execN_one, heos rest rfl (if_neg hlen.ne) hready rfl,
    withError_dec_of_ne_error]
  · rfl
  · exact fun h => Phase.noConfusion (hready.symm.trans h)

/-- A header and no TBC byte. -/
theorem execN_dRun_missingTbc (f : List Byte) (rest : List Token) (s : State) (hlen : f.length = 1024)
    (hphase : s.dec.core.phase = .ready) (hbegun : s.dec.core.begun = false)
    (hinput : s.dec.core.input = f.map .byte ++ .eos :: rest) :
    execN (f.length + 4) .dRun s = .next { s with
      dec := (s.dec.prepared (s.dec.core.loadBytes 0 f).count rest).withCore
        { (s.dec.prepared (s.dec.core.loadBytes 0 f).count rest).core with
          errCause := ⟨Cause.missingTbc.code, s.dec.core.cur.extractLsb' 0 8, Cause.missingTbc.kind⟩
          phase := .error, busy := false } } := by
  have hprep := execN_dRun_prepared f (.eos :: rest) s hlen hphase hbegun hinput
  obtain ⟨-, -, -, -, -, -, -, -, -, heos, -⟩ := runHandsOverAndCompletes.2
    { s with dec := s.dec.prepared (s.dec.core.loadBytes 0 f).count (.eos :: rest) }
  rw [execN_add (n := f.length + 3) (m := 1) hprep, execN_one, heos rest rfl rfl rfl rfl, withError_dec_of_ne_error]
  · rfl
  · exact Phase.noConfusion

/-- A header and another TBC byte than its counts give. -/
theorem execN_dRun_tbcMismatch (f : List Byte) (v : Byte) (rest : List Token) (s : State) (hlen : f.length = 1024)
    (hphase : s.dec.core.phase = .ready) (hbegun : s.dec.core.begun = false)
    (hinput : s.dec.core.input = f.map .byte ++ .byte v :: rest)
    (hne : v.toNat ≠
      (tbcOf (totalBitsOf (s.dec.core.loadBytes 0 f).count (codeTable (s.dec.core.loadBytes 0 f).count))).toNat) :
    execN (f.length + 4) .dRun s = .next { s with
      dec := (s.dec.prepared (s.dec.core.loadBytes 0 f).count rest).withCore
        { (s.dec.prepared (s.dec.core.loadBytes 0 f).count rest).core with
          inBytes := s.dec.core.inBytes + 1024 + 1, auxTbc := v, auxValid := true
          errCause := ⟨Cause.tbcMismatch.code, s.dec.core.cur.extractLsb' 0 8, Cause.tbcMismatch.kind⟩
          phase := .error, busy := false } } := by
  have hprep := execN_dRun_prepared f (.byte v :: rest) s hlen hphase hbegun hinput
  obtain ⟨-, -, -, -, -, -, -, -, hdiffers, -⟩ := runHandsOverAndCompletes.2
    { s with dec := s.dec.prepared (s.dec.core.loadBytes 0 f).count (.byte v :: rest) }
  rw [execN_add (n := f.length + 3) (m := 1) hprep, execN_one, hdiffers v rest rfl rfl rfl rfl hne, withError_dec_of_ne_error]
  · rfl
  · exact Phase.noConfusion

end Sys2Proof.Machine

open Sys2Proof Sys2Proof.Machine

/-- Settles O48: the three runs above, the counts of the third being those whose header was loaded. -/
theorem corruptFilesAreDetected : Obligations.CorruptFilesAreDetected := by
  refine ⟨fun f rest s hlen hphase hbegun hinput => ?truncated, fun f rest s hlen hphase hbegun hinput => ?missing,
    fun count v rest s hphase hbegun hinput hne => ?mismatch⟩
  case truncated =>
    exact ⟨_, execN_dRun_truncated f rest s hlen hphase hbegun hinput, rfl, rfl, rfl, rfl, rfl, rfl⟩
  case missing =>
    exact ⟨_, execN_dRun_missingTbc f rest s hlen hphase hbegun hinput, rfl, rfl, rfl, rfl, rfl, by rw [hlen]; rfl⟩
  case mismatch =>
    have hcount := s.dec.core.count_loadBytes_headerBytes count
    have hrun := execN_dRun_tbcMismatch (headerBytes count) v rest s (length_headerBytes count) hphase hbegun hinput
      (by rw [hcount]; exact hne)
    rw [hcount] at hrun
    refine ⟨_, hrun, rfl, rfl, rfl, rfl, rfl, rfl, rfl, rfl, ?_⟩
    rw [length_headerBytes, BitVec.ofNat_add, ← BitVec.add_assoc]
    rfl
end

section
/-! SUPPORT. D.RUN over the payload (44_bitreader R250 to R254): the bits it has still to take, one at a time, and how it ends. -/

namespace Sys2Proof.Machine

/-! ### The bits of the payload -/

/-- The bits of the number below the top one. -/
theorem lowBits_succ (n v : Nat) : lowBits (n + 1) v = v.testBit n :: lowBits n v := by
  rw [Nat.add_comm, lowBits_add]
  simp [lowBits]

theorem meaningfulBits_nil (tbc : Nat) : meaningfulBits tbc [] = [] := by simp [meaningfulBits]

/-- The last payload byte. -/
theorem meaningfulBits_singleton {tbc : Nat} (h : tbc ≤ 8) (b : Byte) : meaningfulBits tbc [b] = (bitsOfByte b).take tbc := by
  rw [meaningfulBits, List.flatMap_singleton, List.length_singleton]
  congr 1
  omega

/-- A payload byte before the last. -/
theorem meaningfulBits_cons_cons (tbc : Nat) (b c : Byte) (p : List Byte) :
    meaningfulBits tbc (b :: c :: p) = bitsOfByte b ++ meaningfulBits tbc (c :: p) := by
  rw [meaningfulBits, List.flatMap_cons, List.take_append, meaningfulBits, length_bitsOfByte,
    List.take_of_length_le (l := bitsOfByte b) (by simp only [length_bitsOfByte, List.length_cons]; omega)]
  congr 2
  simp only [List.length_cons]
  omega

/-- The last payload byte, shifted, has its meaningful bits lowest (44_bitreader R251). -/
theorem lowBits_shiftRight {tbc : Nat} (h : tbc ≤ 8) (b : Byte) :
    lowBits tbc (b >>> (8 - tbc)).toNat = (bitsOfByte b).take tbc := by
  have hsplit : lowBits 8 b.toNat = lowBits (tbc + (8 - tbc)) b.toNat := by rw [Nat.add_sub_cancel' h]
  rw [bitsOfByte_eq, BitVec.toNat_ushiftRight, hsplit, lowBits_add, List.take_left' (length_lowBits _ _)]

/-- The bits DEC has still to take: those in its buffer, and those of the payload bytes `p` still queued. -/
def Dec.remaining (d : Dec) (p : List Byte) : List Bool :=
  lowBits d.brCnt.toNat d.brBuf.toNat ++ meaningfulBits d.core.calcTbc.toNat p

/-! ### One bit -/

/-- DEC in STAGE 4 of D.RUN, with the payload bytes `p` and their EOS still queued. -/
structure Dec.Decoding (d : Dec) (p : List Byte) (rest : List Token) : Prop where
  phase : d.core.phase = .decoding
  begun : d.core.begun = true
  stage : d.core.stage = 4
  input : d.core.input = p.map .byte ++ .eos :: rest
  tbc_pos : 0 < d.core.calcTbc.toNat
  tbc_le : d.core.calcTbc.toNat ≤ 8

/-- With a bit to take, buffered or loaded, the first remaining bit is the one the walk follows, and the others remain. -/
theorem Dec.Decoding.cases {d : Dec} {p : List Byte} {rest : List Token} (h : d.Decoding p rest) :
    (d.brCnt = 0 ∧ p = []) ∨
    ∃ d' p', HasBit d d' ∧ d'.Decoding p' rest ∧ d'.brCnt ≠ 0 ∧ d'.remaining p' = d.remaining p ∧
      d'.walkNode = d.walkNode ∧ d'.core.node = d.core.node ∧ d'.core.output = d.core.output ∧ d'.core.cur = d.core.cur := by
  by_cases hcnt : d.brCnt = 0
  case neg => exact .inr ⟨d, p, .inl ⟨hcnt, rfl⟩, h, hcnt, rfl, rfl, rfl, rfl, rfl⟩
  obtain ⟨hphase, hbegun, hstage, hinput, hpos, hle⟩ := h
  match p with
  | [] => exact .inl ⟨hcnt, rfl⟩
  | [b] =>
    refine .inr ⟨afterLoad d b (.eos :: rest) true, [], .inr ⟨hcnt, b, .eos, rest, hinput, rfl⟩,
      ⟨hphase, hbegun, hstage, rfl, hpos, hle⟩, fun h0 => ?_, ?_, rfl, rfl, rfl, rfl⟩
    · exact hpos.ne' (congrArg BitVec.toNat h0)
    · rw [remaining, remaining, hcnt, meaningfulBits_nil, meaningfulBits_singleton hle, List.append_nil]
      exact lowBits_shiftRight hle b
  | b :: c :: p =>
    refine .inr ⟨afterLoad d b (.byte c :: (p.map Token.byte ++ .eos :: rest)) false, c :: p,
      .inr ⟨hcnt, b, .byte c, p.map Token.byte ++ .eos :: rest, hinput, rfl⟩,
      ⟨hphase, hbegun, hstage, rfl, hpos, hle⟩, ?_, ?_, rfl, rfl, rfl, rfl⟩
    · exact (by decide : (8 : BitVec 4) ≠ 0)
    · rw [remaining, remaining, hcnt, meaningfulBits_cons_cons]
      rfl

theorem afterBit_of_leaf {d : Dec} (h : (childTaken d).toNat ≤ 255) :
    afterBit d = { d with
      brCnt := d.brCnt - 1, brBuf := d.brBuf &&& BitVec.ofNat 8 (2 ^ (d.brCnt - 1).toNat - 1)
      consumedBits := d.consumedBits + 1, walkNode := 510
      core := { d.core with
        output := d.core.output ++ [.byte ((childTaken d).setWidth 8)], outBytes := d.core.outBytes + 1 } } := by
  simp only [afterBit, h, decide_true, if_true]

theorem afterBit_of_inner {d : Dec} (h : 255 < (childTaken d).toNat) :
    afterBit d = { d with
      brCnt := d.brCnt - 1, brBuf := d.brBuf &&& BitVec.ofNat 8 (2 ^ (d.brCnt - 1).toNat - 1)
      consumedBits := d.consumedBits + 1, walkNode := childTaken d } := by
  simp only [afterBit, Nat.not_le.mpr h, decide_false, Bool.false_eq_true, if_false]

theorem Dec.Decoding.afterBit {d : Dec} {p : List Byte} {rest : List Token} (h : d.Decoding p rest) :
    (afterBit d).Decoding p rest := by
  obtain ⟨hphase, hbegun, hstage, hinput, hpos, hle⟩ := h
  by_cases hleaf : (childTaken d).toNat ≤ 255
  · rw [afterBit_of_leaf hleaf]
    exact ⟨hphase, hbegun, hstage, hinput, hpos, hle⟩
  · rw [afterBit_of_inner (Nat.not_le.mp hleaf)]
    exact ⟨hphase, hbegun, hstage, hinput, hpos, hle⟩

/-- The bit taken is the first of those that remained. -/
theorem Dec.remaining_of_ne_zero {d : Dec} (p : List Byte) (h : d.brCnt ≠ 0) :
    d.remaining p = d.brBuf.getLsbD (d.brCnt.toNat - 1) :: (Sys2Proof.afterBit d).remaining p := by
  have htbc : (Sys2Proof.afterBit d).core.calcTbc = d.core.calcTbc := by
    by_cases hleaf : (childTaken d).toNat ≤ 255
    · rw [afterBit_of_leaf hleaf]
    · rw [afterBit_of_inner (Nat.not_le.mp hleaf)]
  have hpos : d.brCnt.toNat ≠ 0 := fun h0 => h (BitVec.eq_of_toNat_eq h0)
  have hpred : (d.brCnt - 1).toNat = d.brCnt.toNat - 1 := by
    have := d.brCnt.isLt
    rw [BitVec.toNat_sub]
    change (2 ^ 4 - 1 + _) % 2 ^ 4 = _
    omega
  have hlow : lowBits (d.brCnt - 1).toNat (d.brBuf &&& BitVec.ofNat 8 (2 ^ (d.brCnt - 1).toNat - 1)).toNat =
      lowBits (d.brCnt.toNat - 1) d.brBuf.toNat := by
    rw [hpred]
    refine lowBits_congr fun i hi => ?_
    change (d.brBuf &&& _).getLsbD i = d.brBuf.getLsbD i
    rw [BitVec.getLsbD_and, BitVec.getLsbD_ofNat, Nat.testBit_two_pow_sub_one, decide_eq_true hi, Bool.and_true]
    by_cases h8 : i < 8
    · rw [decide_eq_true h8, Bool.and_true]
    · rw [BitVec.getLsbD_of_ge _ _ (Nat.not_lt.mp h8), Bool.false_and]
  have hsucc : d.brCnt.toNat = d.brCnt.toNat - 1 + 1 := (Nat.succ_pred hpos).symm
  rw [remaining, remaining, htbc]
  conv_lhs => rw [hsucc, lowBits_succ]
  rw [List.cons_append]
  exact congrArg (fun bits => _ :: (bits ++ _)) hlow.symm

/-! ### The run -/

/-- The micro-step of D.RUN that takes a bit. -/
theorem exec_dRun_of_hasBit {s : State} {d' : Dec} {p p' : List Byte} {rest : List Token} (h : s.dec.Decoding p rest)
    (hbit : HasBit s.dec d') (h' : d'.Decoding p' rest) : exec .dRun s = .next { s with dec := afterBit d' } := by
  rw [exec_dRun_of_stage_four ((Common.stageNow_of_begun h.begun).trans h.stage), exec_dDecodeStream_of_decoding h.phase,
    Dec.decodeStreamBody_of_hasBit hbit]
  exact runDec_more_of_begun s h'.afterBit.begun

/-- How D.RUN has ended in `t`, the run's opcode being that of `cur` and its output going to the end of `out`. -/
def EndsAs (rest : List Token) (cur : Word) (out : List Token) (t : State) : DecodeResult → Prop
  | .bytes x => t.dec.core.phase = .done ∧ t.dec.eop = true ∧ t.dec.core.done = true ∧ t.dec.core.input = rest ∧
      t.dec.core.output = out ++ x.map .byte ++ [.eos]
  | .failed k => t.dec.core.phase = .error ∧ t.dec.core.errCause = ⟨k.code, cur.extractLsb' 0 8, k.kind⟩

/-- D.RUN, from `s`, ends so. -/
def RunEnds (s : State) (rest : List Token) (cur : Word) (out : List Token) (r : DecodeResult) : Prop :=
  ∃ n t, execN n .dRun s = .next t ∧ t.dec.core.busy = false ∧ EndsAs rest cur out t r

theorem RunEnds.of_execN {s t : State} {n : Nat} {rest : List Token} {cur : Word} {out : List Token} {r : DecodeResult}
    (h : execN n .dRun s = .next t) (ht : RunEnds t rest cur out r) : RunEnds s rest cur out r := by
  obtain ⟨m, t', hrun, hend⟩ := ht
  exact ⟨n + m, t', (execN_add h).trans hrun, hend⟩

/-- What the walk over the payload comes to, as a result of the run. -/
def walkResult : Option (List Byte) → DecodeResult
  | some x => .bytes x
  | none => .failed .incompleteCode

/-- A symbol emitted first. -/
theorem RunEnds.cons {s : State} {rest : List Token} {cur : Word} {out : List Token} {b : Byte} {r : Option (List Byte)}
    (h : RunEnds s rest cur (out ++ [.byte b]) (walkResult r)) : RunEnds s rest cur out (walkResult (r.map (b :: ·))) := by
  obtain ⟨n, t, hrun, hbusy, hend⟩ := h
  refine ⟨n, t, hrun, hbusy, ?_⟩
  cases r with
  | none => exact hend
  | some x =>
    obtain ⟨hphase, heop, hdone, hinput, hout⟩ := hend
    exact ⟨hphase, heop, hdone, hinput, by rw [hout]; simp⟩

/-- STAGE 4: the run ends as the walk over the remaining bits does. -/
theorem runEnds_of_decoding (bits : List Bool) (s : State) (p : List Byte) (rest : List Token) (h : s.dec.Decoding p rest)
    (hbits : s.dec.remaining p = bits) :
    RunEnds s rest s.dec.core.cur s.dec.core.output (walkResult (decodeBits s.dec.core.node s.dec.walkNode bits)) := by
  induction bits generalizing s p with
  | nil =>
    rcases h.cases with ⟨hcnt, rfl⟩ | ⟨d', p', -, -, hcnt, hremaining, -⟩
    case inr =>
      rw [hbits, Dec.remaining_of_ne_zero p' hcnt] at hremaining
      cases hremaining
    have hexec : execN 1 .dRun s = runDec s s.dec.decodeStreamBody := by
      rw [execN_one, exec_dRun_of_stage_four ((Common.stageNow_of_begun h.begun).trans h.stage),
        exec_dDecodeStream_of_decoding h.phase]
    obtain ⟨hended, hcut, -⟩ := runDec_decodeStream_walkEnds s
    by_cases hroot : s.dec.walkNode = rootNode
    · refine ⟨1, _, hexec.trans (hended rest hcnt h.input hroot), rfl, ?_⟩
      rw [decodeBits, if_pos hroot]
      exact ⟨rfl, rfl, rfl, rfl, by simp⟩
    · refine ⟨1, _, hexec.trans (hcut rest hcnt h.input hroot), rfl, ?_⟩
      rw [decodeBits, if_neg hroot]
      exact ⟨rfl, if_neg fun herror => Phase.noConfusion (h.phase.symm.trans herror)⟩
  | cons b bits ih =>
    rcases h.cases with ⟨hcnt, rfl⟩ | ⟨d', p', hbit, hd', hcnt, hremaining, hwalk, hnode, hout, hcur⟩
    · rw [Dec.remaining, hcnt, meaningfulBits_nil] at hbits
      cases hbits
    rw [hbits, Dec.remaining_of_ne_zero p' hcnt, List.cons.injEq] at hremaining
    obtain ⟨hb, hrest⟩ := hremaining
    have hchild : childTaken d' =
        if b then (nodeOf s.dec.core.node s.dec.walkNode).r else (nodeOf s.dec.core.node s.dec.walkNode).l := by
      rw [childTaken, hb, hnode, hwalk]
    have hgo := ih { s with dec := afterBit d' } p' hd'.afterBit hrest
    refine RunEnds.of_execN ((execN_one _ s).trans (exec_dRun_of_hasBit h hbit hd')) ?_
    by_cases hleaf : (childTaken d').toNat ≤ 255
    · rw [decodeBits_leaf _ _ _ _ (hchild ▸ hleaf), ← hchild, ← hcur, ← hout, ← hnode]
      simp only [afterBit_of_leaf hleaf] at hgo ⊢
      exact hgo.cons
    · rw [decodeBits_inner _ _ _ _ (hchild ▸ Nat.not_le.mp hleaf), ← hchild, ← hcur, ← hout, ← hnode]
      simp only [afterBit_of_inner (Nat.not_le.mp hleaf)] at hgo ⊢
      exact hgo

/-! ### Files -/

/-- Four bytes as one count, and back (30_encoding R136). -/
theorem countBytes_append (a b c d : Byte) : countBytes (a ++ b ++ c ++ d) = [a, b, c, d] := by
  simp [countBytes, -Nat.reduceAdd, BitVec.extractLsb'_append_eq_of_add_le, BitVec.extractLsb'_append_eq_of_le]

theorem getElem?_four (g : Nat → Byte) {k : Nat} (h : k < 4) : [g 0, g 1, g 2, g 3][k]? = some (g k) :=
  match k with
  | 0 | 1 | 2 | 3 => rfl

/-- The first 1024 bytes of a file are the header of its counts. -/
theorem headerBytes_headerCounts {f : List Byte} (h : 1024 ≤ f.length) : headerBytes (headerCounts f) = f.take 1024 := by
  refine List.ext_getElem? fun i => ?_
  by_cases hi : i < 1024
  · have hk : i % 4 < 4 := Nat.mod_lt _ (by decide)
    have hget := getElem?_headerBytes (headerCounts f) (i / 4) (by omega) hk
    rw [Nat.div_add_mod] at hget
    rw [hget, headerCounts, Vector.getElem_ofFn, countBytes_append, List.getElem?_take_of_lt hi]
    refine (getElem?_four (fun k => f.getD (4 * (i / 4) + k) 0) hk).trans ?_
    rw [Nat.div_add_mod, List.getD_eq_getElem _ _ (by omega), List.getElem?_eq_getElem (by omega)]
  · rw [List.getElem?_eq_none (by rw [length_headerBytes]; omega), List.getElem?_eq_none (by simp; omega)]

theorem headerBytes_injective {count count' : Vector (BitVec 32) 256} (h : headerBytes count = headerBytes count') :
    count = count' := by
  rw [← Common.reset.count_loadBytes_headerBytes count, h, Common.count_loadBytes_headerBytes]

theorem headerCounts_headerBytes_append (count : Vector (BitVec 32) 256) (g : List Byte) :
    headerCounts (headerBytes count ++ g) = count := by
  refine headerBytes_injective ?_
  rw [headerBytes_headerCounts (by rw [List.length_append, length_headerBytes]; omega),
    List.take_left' (length_headerBytes count)]

/-- A file that holds a whole header begins with the header of a count table. -/
theorem exists_header {f : List Byte} (h : 1024 ≤ f.length) : ∃ count g, f = headerBytes count ++ g :=
  ⟨headerCounts f, f.drop 1024, by rw [headerBytes_headerCounts h, List.take_append_drop]⟩

theorem decodeFile_of_short {f : List Byte} (h : f.length < 1024) : decodeFile f = .failed .truncatedHeader := if_pos h

/-- The bytes after a header. -/
theorem drop_headerBytes_append (count : Vector (BitVec 32) 256) (g : List Byte) : (headerBytes count ++ g).drop 1024 = g :=
  List.drop_left' (length_headerBytes count)

theorem not_short (count : Vector (BitVec 32) 256) (g : List Byte) : ¬(headerBytes count ++ g).length < 1024 := by
  rw [List.length_append, length_headerBytes]
  omega

theorem decodeFile_header (count : Vector (BitVec 32) 256) : decodeFile (headerBytes count ++ []) = .failed .missingTbc := by
  rw [decodeFile, if_neg (not_short count []), drop_headerBytes_append]

theorem decodeFile_of_tbc_ne {count : Vector (BitVec 32) 256} {v : Byte} (payload : List Byte)
    (h : v.toNat ≠ (tbcOf (totalBitsOf count (codeTable count))).toNat) :
    decodeFile (headerBytes count ++ v :: payload) = .failed .tbcMismatch := by
  rw [decodeFile, if_neg (not_short count _), drop_headerBytes_append, headerCounts_headerBytes_append]
  exact if_pos h

theorem decodeFile_of_tbc_eq {count : Vector (BitVec 32) 256} {v : Byte} (payload : List Byte)
    (h : v.toNat = (tbcOf (totalBitsOf count (codeTable count))).toNat) :
    decodeFile (headerBytes count ++ v :: payload) =
      walkResult (decodeBits (treeBuild count) rootNode
        (meaningfulBits (tbcOf (totalBitsOf count (codeTable count))).toNat payload)) := by
  rw [decodeFile, if_neg (not_short count _), drop_headerBytes_append, headerCounts_headerBytes_append]
  refine (if_neg (not_not.mpr h)).trans ?_
  cases decodeBits (treeBuild count) rootNode (meaningfulBits (tbcOf (totalBitsOf count (codeTable count))).toNat payload) <;>
    rfl

/-- The walk over the codes of `x` gives `x` (44_bitreader R254). -/
theorem decodeBits_payloadBits (count : Vector (BitVec 32) 256) (x : List Byte) :
    decodeBits (treeBuild count) rootNode (payloadBits (codeTable count) x) = some x := by
  induction x with
  | nil => rfl
  | cons b x ih =>
    rw [payloadBits_cons, (pathTo_codeBits count b).decodeBits (by decide), ih]
    rfl

/-- The trailing-bit count is 1 to 8 (30_encoding R137). -/
theorem tbcOf_bounds (t : Counter) : 0 < (tbcOf t).toNat ∧ (tbcOf t).toNat ≤ 8 := by
  rw [toNat_tbcOf]
  split <;> omega

/-- An encoded file decodes to its input (40_command_model R163). -/
theorem decodeFile_encodeFile {x : List Byte} (hx : ∀ b : Byte, x.count b < 2 ^ 32) :
    decodeFile (encodeFile x) = .bytes x := by
  have hfile : encodeFile x = headerBytes (countTable x) ++
      (tbcOf (totalBitsOf (countTable x) (codeTable (countTable x)))).setWidth 8 ::
        packBits (payloadBits (codeTable (countTable x)) x) := by
    rw [encodeFile, List.append_assoc]
    rfl
  rw [hfile, decodeFile_of_tbc_eq _ (BitVec.toNat_setWidth_of_le (by decide)),
    toNat_tbcOf_total _ _ (length_payloadBits hx (codeTable (countTable x))), meaningfulBits_packBits, decodeBits_payloadBits]
  rfl

/-- D.RUN after a whole header and the right TBC byte is in STAGE 4, with the payload to take. -/
theorem execN_dRun_decoding (count : Vector (BitVec 32) 256) (v : Byte) (payload : List Byte) (rest : List Token) (s : State)
    (hphase : s.dec.core.phase = .ready) (hbegun : s.dec.core.begun = false)
    (hinput : s.dec.core.input = (headerBytes count ++ v :: payload).map .byte ++ .eos :: rest)
    (h : v.toNat = (tbcOf (totalBitsOf count (codeTable count))).toNat) :
    ∃ d, execN ((headerBytes count).length + 3 + 1) .dRun s = .next { s with dec := d } ∧ d.Decoding payload rest ∧
      d.remaining payload = meaningfulBits (tbcOf (totalBitsOf count (codeTable count))).toNat payload ∧
      d.walkNode = rootNode ∧ d.core.node = treeBuild count ∧ d.core.output = s.dec.core.output ∧
      d.core.cur = s.dec.core.cur := by
  have hcount := s.dec.core.count_loadBytes_headerBytes count
  have hprep := execN_dRun_prepared (headerBytes count) (.byte v :: (payload.map .byte ++ .eos :: rest)) s
    (length_headerBytes count) hphase hbegun (by rw [hinput]; simp)
  rw [hcount] at hprep
  obtain ⟨-, -, -, -, -, -, -, hequal, -⟩ := runHandsOverAndCompletes.2
    { s with dec := s.dec.prepared count (.byte v :: (payload.map .byte ++ .eos :: rest)) }
  have hstep := hequal v (payload.map .byte ++ .eos :: rest) rfl rfl rfl rfl h
  obtain ⟨hpos, hle⟩ := tbcOf_bounds (totalBitsOf count (codeTable count))
  exact ⟨_, (execN_add hprep).trans ((execN_one _ _).trans hstep), ⟨rfl, rfl, rfl, rfl, hpos, hle⟩, rfl, rfl, rfl, rfl, rfl⟩

/-- D.RUN on any file and its EOS ends as `DecodeFile` says (40_command_model R162, R167). -/
theorem runEnds_decodeFile (f : List Byte) (rest : List Token) (s : State) (hphase : s.dec.core.phase = .ready)
    (hbegun : s.dec.core.begun = false) (hinput : s.dec.core.input = f.map .byte ++ .eos :: rest) :
    RunEnds s rest s.dec.core.cur s.dec.core.output (decodeFile f) := by
  by_cases hshort : f.length < 1024
  · rw [decodeFile_of_short hshort]
    exact ⟨_, _, execN_dRun_truncated f rest s hshort hphase hbegun hinput, rfl, rfl, rfl⟩
  obtain ⟨count, g, rfl⟩ := exists_header (Nat.not_lt.mp hshort)
  cases g with
  | nil =>
    rw [decodeFile_header]
    rw [List.append_nil] at hinput
    exact ⟨_, _, execN_dRun_missingTbc _ rest s (length_headerBytes count) hphase hbegun hinput, rfl, rfl, rfl⟩
  | cons v payload =>
    by_cases heq : v.toNat = (tbcOf (totalBitsOf count (codeTable count))).toNat
    · rw [decodeFile_of_tbc_eq payload heq]
      obtain ⟨d, hrun, hd, hbits, hwalk, hnode, hout, hcur⟩ :=
        execN_dRun_decoding count v payload rest s hphase hbegun hinput heq
      have hends := runEnds_of_decoding _ { s with dec := d } payload rest hd hbits
      simp only [hwalk, hnode, hout, hcur] at hends
      exact hends.of_execN hrun
    · rw [decodeFile_of_tbc_ne payload heq]
      exact ⟨_, _, execN_dRun_tbcMismatch (headerBytes count) v (payload.map .byte ++ .eos :: rest) s (length_headerBytes count)
        hphase hbegun (by rw [hinput]; simp) (by rw [Common.count_loadBytes_headerBytes]; exact heq), rfl, rfl, rfl⟩

end Sys2Proof.Machine

open Sys2Proof Sys2Proof.Machine

/-- Settles O47: D.RUN ends as DecodeFile says, and DecodeFile inverts EncodeFile. -/
theorem runDecodesEncodedFile : Obligations.RunDecodesEncodedFile := by
  refine ⟨fun x rest s hx hphase hbegun hinput => ?encoded, fun f rest s hphase hbegun hinput => ?any,
    fun x hx => decodeFile_encodeFile hx⟩
  case encoded =>
    have hends := runEnds_decodeFile _ rest s hphase hbegun hinput
    rw [decodeFile_encodeFile hx] at hends
    obtain ⟨n, t, hrun, hbusy, hdone, heop, hflag, hrest, hout⟩ := hends
    exact ⟨n, t, hrun, hdone, heop, hbusy, hflag, hrest, hout⟩
  case any =>
    obtain ⟨n, t, hrun, hbusy, hends⟩ := runEnds_decodeFile f rest s hphase hbegun hinput
    refine ⟨n, t, hrun, hbusy, ?_⟩
    cases hfile : decodeFile f <;> rw [hfile] at hends <;> exact hends
end
